-- ==== Sys2Proof/Word.lean ====
section
/-! DEFINITION. The word types of the engine, by the widths of spec/00_scope.md R4 and R5. Every value is an unsigned
integer of a stated width, bit 0 the least significant (R7). -/

namespace Sys2Proof

/-- A byte of a buffer and a command word: 8 bits (20_memory.md R41, 30_encoding.md R60). -/
abbrev Byte := BitVec 8

/-- A block word, and the key word: 64 bits (00_scope.md R4). -/
abbrev Block := BitVec 64

/-- The key word held in KEY: 64 bits (30_encoding.md R66). -/
abbrev Key := BitVec 64

/-- A round subkey: 48 bits (30_encoding.md R68). -/
abbrev Subkey := BitVec 48

/-- A data half L or R: 32 bits (00_scope.md R4). -/
abbrev Half := BitVec 32

/-- A key-schedule half C or D: 28 bits (00_scope.md R4). -/
abbrev KeyHalf := BitVec 28

/-- A length register, ILEN or OLEN: LENW = 32 bits (00_scope.md R5). -/
abbrev Len := BitVec 32

end Sys2Proof
end

