-- ==== Sys2Proof/Syntax.lean ====
section
/-! DEFINITION. The instructions of the engine: the six commands of spec/30_encoding.md R61, one constructor per row of
spec/opcode_table.json. A command carries no register field and no immediate (R60, R65), so no constructor has an argument.
Host operations (spec/45_host_access.md R190) have no encoding and no row; they are the inputs of the port
(Sys2Proof/Machine/Port.lean). -/

namespace Sys2Proof

/-- The six commands (30_encoding.md R61). -/
inductive Instr where
  /-- 0x01, generate a key (40_key_schedule.md R92). -/
  | genkey
  /-- 0x02, derive and store the subkeys of KEY (40_key_schedule.md R91). -/
  | keyexp
  /-- 0x04, encrypt one block (43_block_transform.md R147). -/
  | encb
  /-- 0x05, decrypt one block (43_block_transform.md R148). -/
  | decb
  /-- 0x06, pad and encrypt the input byte sequence (44_ecb_stream.md R163). -/
  | encs
  /-- 0x07, decrypt the input byte sequence, check and strip the padding (44_ecb_stream.md R165). -/
  | decs
  deriving DecidableEq, Repr

end Sys2Proof
end

