-- ==== Sys2Proof/Decode.lean ====
section
/-! DEFINITION. Decoding and encoding of command words (spec/30_encoding.md R60 to R64). Decoding compares the 8-bit word
with the rows of the opcode map under mask 0xFF (R64); encoding assembles the fields ZERO, CLASS, SEL and DIR (R60). -/

namespace Sys2Proof

/-- One row of spec/opcode_table.json: a word `v` is the command when `v AND mask = pattern`. -/
structure OpRow where
  instr : Instr
  mask : Byte
  pattern : Byte
  deriving DecidableEq, Repr

/-- The opcode map (30_encoding.md R61). -/
def opcodeMap : List OpRow :=
  [ ⟨.genkey, 0xFF#8, 0x01#8⟩,
    ⟨.keyexp, 0xFF#8, 0x02#8⟩,
    ⟨.encb, 0xFF#8, 0x04#8⟩,
    ⟨.decb, 0xFF#8, 0x05#8⟩,
    ⟨.encs, 0xFF#8, 0x06#8⟩,
    ⟨.decs, 0xFF#8, 0x07#8⟩ ]

/-- Whether a word matches a row under the row's mask. -/
def rowMatches (v : Byte) (row : OpRow) : Bool := (v &&& row.mask) == row.pattern

/-- What a command word is: one of the six commands, or Illegal (30_encoding.md R64). -/
inductive Decoded where
  | command (i : Instr)
  | illegal (v : Byte)
  deriving DecidableEq, Repr

/-- `decode(v)`, total on the 256 values (30_encoding.md R64); the other 250 values are rejected as Illegal (R62, R63). -/
def decode (v : Byte) : Decoded :=
  match opcodeMap.find? (rowMatches v) with
  | some row => .command row.instr
  | none => .illegal v

/-- CLASS, bits 3:2: 00 key operations, 01 cipher operations (30_encoding.md R60). -/
def classField : Instr → BitVec 2
  | .genkey | .keyexp => 0b00#2
  | .encb | .decb | .encs | .decs => 0b01#2

/-- SEL, bit 1: in class 01, 0 = one block and 1 = byte stream (30_encoding.md R60). -/
def selField : Instr → BitVec 1
  | .genkey => 0b0#1
  | .keyexp => 0b1#1
  | .encb | .decb => 0b0#1
  | .encs | .decs => 0b1#1

/-- DIR, bit 0: in class 01, 0 = encrypt and 1 = decrypt (30_encoding.md R60). -/
def dirField : Instr → BitVec 1
  | .genkey => 0b1#1
  | .keyexp => 0b0#1
  | .encb | .encs => 0b0#1
  | .decb | .decs => 0b1#1

/-- The command word of an instruction: ZERO || CLASS || SEL || DIR (30_encoding.md R60). -/
def encode (i : Instr) : Byte := 0b0000#4 ++ classField i ++ selField i ++ dirField i

/-- The mnemonic of a command (30_encoding.md R61). -/
def mnemonic : Instr → String
  | .genkey => "GENKEY"
  | .keyexp => "KEYEXP"
  | .encb => "ENCB"
  | .decb => "DECB"
  | .encs => "ENCS"
  | .decs => "DECS"

/-- The one command word in the low `nbits` bits of `w`; every command is 8 bits (30_encoding.md R60; log 21). -/
def tableWordByte (nbits w : Nat) : Byte := BitVec.ofNat 8 (w % 2 ^ nbits)

/-- The instruction the decoder reads from a table word (the host's question about each row of spec/opcode_table.json). -/
def decodeTableWord (nbits w : Nat) : Option Instr :=
  match decode (tableWordByte nbits w) with
  | .command i => some i
  | .illegal _ => none

end Sys2Proof
end

