-- ==== Sys2Proof/Machine/Permutation.lean ====
section
/-! DEFINITION. The permutation primitive (spec/41_permutation.md R100), on DES positions (spec/00_scope.md R8). -/

namespace Sys2Proof.Machine

/-- `pos(v, w, p)`: the bit at DES position p of a w-bit value, integer bit w - p (00_scope.md R8). -/
def pos {w : Nat} (v : BitVec w) (p : Nat) : Bool := v.getLsbD (w - p)

/-- The integer `b_1 || b_2 || ... || b_n` of a list of bits, first bit most significant (41_permutation.md R100). -/
def natOfBits (bits : List Bool) : Nat := bits.foldl (fun acc b => 2 * acc + b.toNat) 0

/-- `permute(value, T, w)`: position m of the n-bit result is position T[m] of the value (41_permutation.md R100); n is the
number of entries of T (R101). -/
def permute {w : Nat} (n : Nat) (table : List Nat) (value : BitVec w) : BitVec n :=
  BitVec.ofNat n (natOfBits (table.map (pos value)))

/-- The initial permutation IP (41_permutation.md R103). -/
def initialPermutation (b : Block) : Block := permute 64 ipTable b

/-- The final permutation IP^-1, FP in pseudocode (41_permutation.md R104). -/
def finalPermutation (b : Block) : Block := permute 64 fpTable b

end Sys2Proof.Machine
end

