-- ==== Sys2Proof/Machine/FFunction.lean ====
section
/-! DEFINITION. The F-function: expansion E, subkey exclusive-or, S-boxes S_1 to S_8, permutation P
(spec/42_f_function.md R120 to R136). -/

namespace Sys2Proof.Machine

/-- Step 1, the expansion of the right half (42_f_function.md R122). -/
def expand (r : Half) : BitVec 48 := permute 48 eTable r

/-- Group j of a 48-bit value, j = 1..8: bits [48-6j+5 : 48-6j], most-significant group first (42_f_function.md R124). -/
def group (x : BitVec 48) (j : Nat) : BitVec 6 := x.extractLsb' (48 - 6 * j) 6

/-- The row number of a group: bit 5 is the high bit, bit 0 the low bit (42_f_function.md R125). -/
def sboxRow (g : BitVec 6) : BitVec 2 := g.extractLsb' 5 1 ++ g.extractLsb' 0 1

/-- The column number of a group: bits 4:1 (42_f_function.md R125). -/
def sboxCol (g : BitVec 6) : BitVec 4 := g.extractLsb' 1 4

/-- `S_j[row][col]` for the row and column of a group (42_f_function.md R125). -/
def sboxLookup (box : List (List Nat)) (g : BitVec 6) : BitVec 4 :=
  BitVec.ofNat 4 ((box.getD (sboxRow g).toNat []).getD (sboxCol g).toNat 0)

/-- Steps 3 and 4, the eight lookups, s_1 || s_2 || ... || s_8 (42_f_function.md R124, R125, R134). -/
def substitute (x : BitVec 48) : Half :=
  sboxLookup sbox1 (group x 1) ++ sboxLookup sbox2 (group x 2) ++ sboxLookup sbox3 (group x 3) ++
  sboxLookup sbox4 (group x 4) ++ sboxLookup sbox5 (group x 5) ++ sboxLookup sbox6 (group x 6) ++
  sboxLookup sbox7 (group x 7) ++ sboxLookup sbox8 (group x 8)

/-- `F(r, k)` (42_f_function.md R120, R123, R136). -/
def fFunction (r : Half) (k : Subkey) : Half := permute 32 pTable (substitute (expand r ^^^ k))

end Sys2Proof.Machine
end

