-- ==== Sys2Proof/Machine/Flags.lean ====
section
/-! DEFINITION. The only flags of the engine: the two fields of STATUS (spec/10_state.md R16, R30), and the errors
they report (spec/60_exceptions.md R210). No operation of the engine produces a carry, zero, sign or overflow flag. -/

namespace Sys2Proof.Machine

/-- The four errors a command can report (60_exceptions.md R210). -/
inductive ErrKind where
  /-- ILEN mod 8 /= 0 (60_exceptions.md R212). -/
  | lengthInvalid
  /-- Empty input, a bad pad length or a bad pad byte (60_exceptions.md R213). -/
  | paddingInvalid
  /-- The unpadded bytes are not valid text (60_exceptions.md R214). -/
  | decodeInvalid
  /-- The command word is not one of the six commands (60_exceptions.md R215). -/
  | illegalCommand
  deriving DecidableEq, Repr

/-- `code(E)` (60_exceptions.md R210). -/
def errCode : ErrKind → BitVec 3
  | .lengthInvalid => 1#3
  | .paddingInvalid => 2#3
  | .decodeInvalid => 3#3
  | .illegalCommand => 4#3

/-- The STATUS word with the given fields: bits 7:4 zero, VALID in bit 3, ERR in bits 2:0 (10_state.md R16). -/
def statusWord (valid : Bool) (err : BitVec 3) : BitVec 8 := 0b0000#4 ++ BitVec.ofBool valid ++ err

/-- STATUS after a command that succeeds: ERR = 0, VALID = 1, the word 0x08 (10_state.md R16). -/
def statusOk : BitVec 8 := statusWord true 0#3

/-- STATUS after a command that fails: ERR = code(E), VALID = 0 (60_exceptions.md R211). -/
def statusErr (e : ErrKind) : BitVec 8 := statusWord false (errCode e)

/-- The field STATUS.ERR (10_state.md R16). -/
def errField (status : BitVec 8) : BitVec 3 := status.extractLsb' 0 3

/-- The field STATUS.VALID (10_state.md R16). -/
def validField (status : BitVec 8) : Bool := status.getLsbD 3

end Sys2Proof.Machine
end

