-- ==== Sys2Proof/Config.lean ====
section
/-! DEFINITION. What the spec leaves to the implementation or to the platform (spec/00_scope.md R6): the open parameters
MAXLEN, Rng and TextValid, and the bytes the buffers hold before anything has been written (spec/10_state.md R28). Each is
a constant with no body, so every theorem about the model holds for every value of it. -/

namespace Sys2Proof

/-- The unconstrained word behind `Config.maxLen`. DESIGN CHOICE, safe (log 4). -/
opaque Config.maxLenSource : BitVec 32

/-- MAXLEN, the capacity of IBUF in bytes; OBUF holds MAXLEN + 8 (00_scope.md R6). The form gives every value with
8 <= MAXLEN <= 2^32 - 9 and no other (`Config.maxLen_range`). DESIGN CHOICE, safe: bounded, value unknown (log 4). -/
def Config.maxLen : Nat := Config.maxLenSource.toNat % (2 ^ 32 - 16) + 8

/-- Rng: the 56 bits the platform supplies to the n-th GENKEY (00_scope.md R6, 40_key_schedule.md R92). A free value under
no law; safe (log 5). -/
opaque Config.rng : Nat → BitVec 56

/-- TextValid: whether unpadded bytes form valid text in the expected encoding (00_scope.md R6, 44_ecb_stream.md R171).
An uninterpreted total predicate of the bytes alone; safe (log 6). -/
opaque Config.textValid : List Byte → Bool

/-- What IBUF holds at an offset that nothing has written since reset number `epoch` (10_state.md R28): a free value,
fixed from that reset on; safe (log 7). -/
opaque Config.ibufUnwritten (epoch offset : Nat) : Byte

/-- What OBUF holds at an offset that nothing has written since reset number `epoch` (10_state.md R28): a free value,
fixed from that reset on; safe (log 7). -/
opaque Config.obufUnwritten (epoch offset : Nat) : Byte

end Sys2Proof
end

