-- ==== Sys2Proof/Machine/Port.lean ====
section
/-! DEFINITION. The host port: register names (spec/10_state.md R27), buffers (spec/20_memory.md R40), the four host
operations (spec/45_host_access.md R190), the inputs of the engine, and the values reads return. Host operations have no
bit encoding in the spec; "a model takes them as the constructors of a host-operation type" (R190). -/

namespace Sys2Proof.Machine

/-- The host-visible registers (10_state.md R27). -/
inductive Reg where
  | cmd
  | status
  | key
  | din
  | dout
  | ilen
  | olen
  | k (i : Fin 16)
  deriving DecidableEq, Repr

/-- The two byte buffers (20_memory.md R40). -/
inductive Buf where
  | ibuf
  | obuf
  deriving DecidableEq, Repr

/-- The four host operations (45_host_access.md R190). A register is named by its number (10_state.md R27); the number of
a reserved register, an offset out of range or a value wider than the register is well typed here and refused by the step
(45_host_access.md R197). -/
inductive HostOp where
  /-- `RD reg` (45_host_access.md R191). -/
  | rd (num : Nat)
  /-- `WR reg, v` (45_host_access.md R192). -/
  | wr (num : Nat) (v : BitVec 64)
  /-- `RDB IBUF, a` and `RDB OBUF, a` (45_host_access.md R194). -/
  | rdb (b : Buf) (off : Nat)
  /-- `WRB a, b`: IBUF only (45_host_access.md R195). -/
  | wrb (off : Nat) (v : Byte)
  deriving DecidableEq, Repr

/-- What can change the engine's state: a host operation, or the reset input (70_reset_and_hazards.md R240). -/
inductive Input where
  | op (o : HostOp)
  | reset
  deriving DecidableEq, Repr

/-- What a read returned to the host: a register's value, zero-extended to 64 bits (log 12), or a buffer byte. -/
inductive Reply where
  | reg (r : Reg) (v : BitVec 64)
  | byte (b : Buf) (off : Nat) (v : Byte)
  deriving DecidableEq, Repr

end Sys2Proof.Machine
end

