-- ==== Sys2Proof/Machine/State.lean ====
section
/-! DEFINITION. The state of the engine (spec/10_state.md R10), the reasons a step can stop, and the state after reset
(spec/10_state.md R28). -/

namespace Sys2Proof.Machine

/-- The written bytes of one buffer: cells in strictly rising order of offset. An offset that is not listed has not been
written since reset and holds a free value (log 7, log 18). -/
abbrev Memory := List Host.Cell

/-- The complete state (10_state.md R10), and the model's own four fields. CMD stores nothing (R17) and has no field. -/
structure State where
  /-- KEY (10_state.md R12). -/
  key : Key
  /-- DIN (10_state.md R13). -/
  din : Block
  /-- DOUT (10_state.md R14). -/
  dout : Block
  /-- K[0..15] (10_state.md R15). -/
  k : Vector Subkey 16
  /-- STATUS (10_state.md R16). -/
  status : BitVec 8
  /-- ILEN (10_state.md R18). -/
  ilen : Len
  /-- OLEN (10_state.md R19). -/
  olen : Len
  /-- The written bytes of IBUF (10_state.md R20). -/
  ibuf : Memory
  /-- The written bytes of OBUF (10_state.md R21). -/
  obuf : Memory
  /-- Working register C (10_state.md R24). -/
  c : KeyHalf
  /-- Working register D (10_state.md R24). -/
  d : KeyHalf
  /-- Working register L (10_state.md R25). -/
  l : Half
  /-- Working register R (10_state.md R25). -/
  r : Half
  /-- Working register RND, 0 to 16 (10_state.md R26). -/
  rnd : BitVec 5
  /-- Working register BLK, LENW bits (10_state.md R26). -/
  blk : BitVec 32
  /-- The model's own: inputs issued and not yet performed, oldest first (log 1). -/
  port : List Input
  /-- The model's own: what reads have returned to the host, newest first (log 2). -/
  replies : List Reply
  /-- The model's own: how many draws GENKEY has taken from Rng (log 5). -/
  draws : Nat
  /-- The model's own: how many times the reset input has been performed (log 7). -/
  epoch : Nat
  deriving DecidableEq, Repr

/-- Why the machine can stop in a fault. The errors of 60_exceptions.md R210 are results, not faults (R220). -/
inductive Fault where
  /-- Raised by ENCS, and by DECS past its length check, when ILEN > MAXLEN: the engine would reach an offset that does not
  exist (20_memory.md R48). No run reaches such a state (10_state.md R34). Safe (log 10). -/
  | engineOffset
  deriving DecidableEq, Repr

/-- Why an operation can have no meaning. -/
inductive Refusal where
  /-- Raised by an arm of `exec` whose instruction has no meaning yet; no arm is left so. Safe. -/
  | notModelled (mnemonic : String)
  /-- Raised by RD and WR of a reserved register number (45_host_access.md R197). Safe (log 11). -/
  | reservedRegister (num : Nat)
  /-- Raised by RDB and WRB at an offset outside the buffer (45_host_access.md R197, 20_memory.md R48). Safe (log 11). -/
  | offsetOutOfRange (b : Buf) (off : Nat)
  /-- Raised by WR ILEN of a value above MAXLEN (45_host_access.md R197). Safe (log 11). -/
  | ilenAboveMaxlen (v : Len)
  /-- Raised by WR of a value that does not fit the register: WR takes "a value of the register's width"
  (45_host_access.md R192), so there is no such operation. Safe (log 11). -/
  | valueTooWide (num : Nat)
  deriving DecidableEq, Repr

/-- The state right after reset (10_state.md R28). The working registers, which R28 leaves unspecified, are 0 (DESIGN
CHOICE, unsafe, log 8); no input is pending, no reply given, no draw taken (log 1, 2, 5, 7). -/
def State.reset : State where
  key := 0x0000000000000000#64
  din := 0x0000000000000000#64
  dout := 0x0000000000000000#64
  k := Vector.replicate 16 0x000000000000#48
  status := 0x00#8
  ilen := 0#32
  olen := 0#32
  ibuf := []
  obuf := []
  c := 0#28
  d := 0#28
  l := 0#32
  r := 0#32
  rnd := 0#5
  blk := 0#32
  port := []
  replies := []
  draws := 0
  epoch := 0

end Sys2Proof.Machine
end

