-- ==== Sys2Proof/Machine/Operands.lean ====
section
/-! DEFINITION. The operands of a host operation: which register a number names and how wide it is (spec/10_state.md R27),
and how many bytes a buffer has (spec/20_memory.md R40). Commands have implicit operands only (spec/30_encoding.md R65). -/

namespace Sys2Proof.Machine

/-- The register a number selects; none for a reserved number, 0x07 to 0x0F and 0x20 and above (10_state.md R27). -/
def regOfNumber (num : Nat) : Option Reg :=
  match num with
  | 0x00 => some .cmd
  | 0x01 => some .status
  | 0x02 => some .key
  | 0x03 => some .din
  | 0x04 => some .dout
  | 0x05 => some .ilen
  | 0x06 => some .olen
  | n => if h : 0x10 ≤ n ∧ n < 0x20 then some (.k ⟨n - 0x10, by omega⟩) else none

/-- The number of a register (10_state.md R27). -/
def regNumber : Reg → Nat
  | .cmd => 0x00
  | .status => 0x01
  | .key => 0x02
  | .din => 0x03
  | .dout => 0x04
  | .ilen => 0x05
  | .olen => 0x06
  | .k i => 0x10 + i.val

/-- The width of a register in bits (10_state.md R27). -/
def regWidth : Reg → Nat
  | .cmd | .status => 8
  | .key | .din | .dout => 64
  | .ilen | .olen => 32
  | .k _ => 48

/-- Whether a value fits the register's width: the `v` of `WR reg, v` is "a value of the register's width"
(45_host_access.md R192). -/
def fitsReg (reg : Reg) (v : BitVec 64) : Bool := decide (v.toNat < 2 ^ regWidth reg)

/-- The number of bytes of a buffer: IBUF has MAXLEN, OBUF has MAXLEN + 8 (20_memory.md R40). -/
def bufSize : Buf → Nat
  | .ibuf => Config.maxLen
  | .obuf => Config.maxLen + 8

end Sys2Proof.Machine
end

