-- ==== Sys2Proof/Machine/Ops.lean ====
section
/-! DEFINITION. The named operations over registers and buffers, the block-wide accesses (spec/20_memory.md R42, R43), and
reporting an error (spec/60_exceptions.md R211). Every register has one home, and every write goes through one of the
updates of this file. -/

namespace Sys2Proof.Machine

/-! ### Register updates -/

/-- `KEY <- v` (10_state.md R12). -/
def State.setKey (s : State) (v : Key) : State := { s with key := v }

/-- `DIN <- v` (10_state.md R13). -/
def State.setDin (s : State) (v : Block) : State := { s with din := v }

/-- `DOUT <- v` (10_state.md R14). -/
def State.setDout (s : State) (v : Block) : State := { s with dout := v }

/-- `K[0..15] <- v`, all sixteen together (10_state.md R15). -/
def State.setSubkeys (s : State) (v : Vector Subkey 16) : State := { s with k := v }

/-- `STATUS <- v` (10_state.md R16). -/
def State.setStatus (s : State) (v : BitVec 8) : State := { s with status := v }

/-- `ILEN <- v` (10_state.md R18). -/
def State.setIlen (s : State) (v : Len) : State := { s with ilen := v }

/-- `OLEN <- v` (10_state.md R19). -/
def State.setOlen (s : State) (v : Len) : State := { s with olen := v }

/-- The written bytes of IBUF become `m` (10_state.md R20). -/
def State.setIbuf (s : State) (m : Memory) : State := { s with ibuf := m }

/-- The written bytes of OBUF become `m` (10_state.md R21). -/
def State.setObuf (s : State) (m : Memory) : State := { s with obuf := m }

/-- `C <- vc; D <- vd` (10_state.md R24). -/
def State.setKeyHalves (s : State) (vc vd : KeyHalf) : State := { s with c := vc, d := vd }

/-- `L <- vl; R <- vr` (10_state.md R25). -/
def State.setHalves (s : State) (vl vr : Half) : State := { s with l := vl, r := vr }

/-- `RND <- v` (10_state.md R26). -/
def State.setRnd (s : State) (v : BitVec 5) : State := { s with rnd := v }

/-- `BLK <- v` (10_state.md R26). -/
def State.setBlk (s : State) (v : BitVec 32) : State := { s with blk := v }

/-- The pending inputs become `p` (log 1). -/
def State.setPort (s : State) (p : List Input) : State := { s with port := p }

/-- A read returns `a` to the host (log 2). -/
def State.addReply (s : State) (a : Reply) : State := { s with replies := a :: s.replies }

/-- One draw has been taken from Rng (log 5). -/
def State.countDraw (s : State) : State := { s with draws := s.draws + 1 }

/-! ### The written bytes of a buffer -/

/-- The byte written at an offset, none where nothing has been written since reset. -/
def Memory.find : Memory → Nat → Option Byte
  | [], _ => none
  | (x, v) :: rest, a => if a = x then some v else if a < x then none else Memory.find rest a

/-- `S[a] <- b`, keeping the cells in strictly rising order of offset. -/
def Memory.write : Memory → Nat → Byte → Memory
  | [], a, b => [(a, b)]
  | (x, v) :: rest, a, b =>
    if a < x then (a, b) :: (x, v) :: rest
    else if a = x then (x, b) :: rest
    else (x, v) :: Memory.write rest a b

/-- The cells from `lo` on are in strictly rising order of offset, all below `hi`. -/
def Memory.sortedWithin : Memory → Nat → Nat → Bool
  | [], _, _ => true
  | (x, _) :: rest, lo, hi => decide (lo ≤ x) && decide (x < hi) && Memory.sortedWithin rest (x + 1) hi

/-- The canonical form of the written bytes of a buffer of `size` bytes: strictly rising offsets, all inside the buffer
(log 18). An unlisted offset holds no written byte, so no entry can equal what an unlisted offset lists. -/
def Memory.wf (size : Nat) (m : Memory) : Bool := Memory.sortedWithin m 0 size

/-! ### Buffer accesses -/

/-- `IBUF[a]` or `OBUF[a]` for the engine and the host alike: the byte written there, or a free value where nothing has
been written since reset (10_state.md R28; log 7). -/
def readByte (s : State) (b : Buf) (a : Nat) : Byte :=
  match b with
  | .ibuf => (Memory.find s.ibuf a).getD (Config.ibufUnwritten s.epoch a)
  | .obuf => (Memory.find s.obuf a).getD (Config.obufUnwritten s.epoch a)

/-- Eight bytes of a sequence from position `a`, first byte most significant (20_memory.md R42). -/
def blockAt (f : Nat → Byte) (a : Nat) : Block :=
  f a ++ f (a + 1) ++ f (a + 2) ++ f (a + 3) ++ f (a + 4) ++ f (a + 5) ++ f (a + 6) ++ f (a + 7)

/-- `MemRead(S, a, 8)` (20_memory.md R42). -/
def memRead (s : State) (b : Buf) (a : Nat) : Block := blockAt (readByte s b) a

/-- Byte j of a block, bits [63-8j : 56-8j] (30_encoding.md R67). -/
def blockByte (v : Block) (j : Nat) : Byte := v.extractLsb' (56 - 8 * j) 8

/-- `IBUF[a] <- b` (45_host_access.md R195). -/
def writeIbuf (s : State) (a : Nat) (b : Byte) : State := s.setIbuf (Memory.write s.ibuf a b)

/-- The cells after `MemWrite(OBUF, a, 8, v)`: byte j of v goes to offset a + j (20_memory.md R43). -/
def Memory.writeBlock (m : Memory) (a : Nat) (v : Block) : Memory :=
  [0, 1, 2, 3, 4, 5, 6, 7].foldl (fun acc j => Memory.write acc (a + j) (blockByte v j)) m

/-- `MemWrite(OBUF, a, 8, v)` (20_memory.md R43). -/
def memWrite (s : State) (a : Nat) (v : Block) : State := s.setObuf (Memory.writeBlock s.obuf a v)

/-- The first `n` bytes of a buffer, in order of offset (20_memory.md R41). -/
def bytesOf (s : State) (b : Buf) (n : Nat) : List Byte := (List.range n).map (readByte s b)

/-! ### The end of a command -/

/-- The end of a command that succeeds: `STATUS <- 0x08` (10_state.md R16). -/
def complete (s : State) : State := s.setStatus statusOk

/-- `raise E` (60_exceptions.md R211): if the command is DECS, `OLEN <- 0`; then `STATUS <- code(E)`; the command ends.
Nothing is saved and no mode changes; writes made before stay. `cmd` is the command that raises, none for a word that is no
command. There is no return from an error: control is back at the host, and the next command runs as after a success
(60_exceptions.md R219), so the return beside it is the identity. -/
def raiseError (cmd : Option Instr) (e : ErrKind) (s : State) : State :=
  (if cmd = some .decs then s.setOlen 0#32 else s).setStatus (statusErr e)

end Sys2Proof.Machine
end

