-- ==== Sys2Proof/Machine/KeySchedule.lean ====
section
/-! DEFINITION. The key schedule generator and the key commands KEYEXP and GENKEY (spec/40_key_schedule.md R80 to R92). -/

namespace Sys2Proof.Machine

/-- `rotl28(x, n)`, left rotation within 28 bits, `x[27-n:0] || x[27:28-n]` (40_key_schedule.md R84). -/
def rotl28 (x : KeyHalf) (n : Nat) : KeyHalf := (x <<< n) ||| (x >>> (28 - n))

/-- The halves C_0 and D_0 of a key: the high and the low 28 bits of the PC-1 selection (40_key_schedule.md R82). -/
def initialKeyHalves (key : Key) : KeyHalf × KeyHalf :=
  let cd0 : BitVec 56 := permute 56 pc1Table key
  (cd0.extractLsb' 28 28, cd0.extractLsb' 0 28)

/-- One schedule round: C and D rotated independently by the round's amount (40_key_schedule.md R85). -/
def rotateHalves (cd : KeyHalf × KeyHalf) (n : Nat) : KeyHalf × KeyHalf := (rotl28 cd.1 n, rotl28 cd.2 n)

/-- The halves after each round of the schedule, in order: (C_1, D_1), (C_2, D_2), ... (40_key_schedule.md R85). -/
def halvesPerRound : List Nat → KeyHalf × KeyHalf → List (KeyHalf × KeyHalf)
  | [], _ => []
  | n :: rest, cd => rotateHalves cd n :: halvesPerRound rest (rotateHalves cd n)

/-- The subkey of a round: PC-2 of C_i || D_i (40_key_schedule.md R85, R86). -/
def subkeyOfHalves (cd : KeyHalf × KeyHalf) : Subkey := permute 48 pc2Table (cd.1 ++ cd.2 : BitVec 56)

/-- There is one pair of halves per entry of the schedule. -/
theorem halvesPerRound_length (rots : List Nat) (cd : KeyHalf × KeyHalf) :
    (halvesPerRound rots cd).length = rots.length := by
  induction rots generalizing cd with
  | nil => rfl
  | cons n rest ih => simp [halvesPerRound, ih]

/-- `KS(key)`, the sixteen subkeys in round order 1..16 (40_key_schedule.md R80, R87). -/
def keySchedule (key : Key) : Vector Subkey 16 :=
  ⟨((halvesPerRound rotTable (initialKeyHalves key)).map subkeyOfHalves).toArray, by
    simp [halvesPerRound_length, rotTable]⟩

/-- The halves C_16 and D_16 that a derivation leaves in C and D (10_state.md R24). -/
def finalKeyHalves (key : Key) : KeyHalf × KeyHalf := rotTable.foldl rotateHalves (initialKeyHalves key)

/-- The derivation that opens every command but GENKEY: `K[i-1] <- k_i` of KS(KEY) (10_state.md R15), with C, D and RND
as the 16 rounds leave them (10_state.md R24, R26; log 8). -/
def deriveSubkeys (s : State) : State :=
  ((s.setSubkeys (keySchedule s.key)).setKeyHalves (finalKeyHalves s.key).1 (finalKeyHalves s.key).2).setRnd 16#5

/-- KEYEXP: derive and store the subkeys of KEY (40_key_schedule.md R91). -/
def execKeyexp (s : State) : Host.Outcome State Fault Refusal := .next (complete (deriveSubkeys s))

/-- The key made of a 56-bit draw: `r || 0x00` (40_key_schedule.md R92). -/
def keyOfDraw (draw : BitVec 56) : Key := draw ++ 0x00#8

/-- GENKEY: `r = draw(56); KEY <- r || 0x00; STATUS <- 0x08` (40_key_schedule.md R92). The draw is a free value (log 5). -/
def execGenkey (s : State) : Host.Outcome State Fault Refusal :=
  .next (complete ((s.setKey (keyOfDraw (Config.rng s.draws))).countDraw))

end Sys2Proof.Machine
end

