-- ==== Sys2Proof/Machine/BlockTransform.lean ====
section
/-! DEFINITION. The 16-round Feistel block transform and the block commands ENCB and DECB
(spec/43_block_transform.md R140 to R149). -/

namespace Sys2Proof.Machine

/-- The direction of a transform (43_block_transform.md R140). -/
inductive Dir where
  | enc
  | dec
  deriving DecidableEq, Repr

/-- The subkeys in the order the rounds use them: K[0]..K[15] to encrypt, K[15]..K[0] to decrypt
(43_block_transform.md R144). -/
def subkeyOrder (dir : Dir) (ks : Vector Subkey 16) : List Subkey :=
  match dir with
  | .enc => ks.toList
  | .dec => ks.toList.reverse

/-- The halves L_0 and R_0: the high and the low 32 bits of IP(block) (43_block_transform.md R142). -/
def initialHalves (block : Block) : Half × Half :=
  let t := initialPermutation block
  (t.extractLsb' 32 32, t.extractLsb' 0 32)

/-- One round: `(L, R) <- (R, L xor F(R, k))`, both from the old pair (43_block_transform.md R143). -/
def feistelRound (lr : Half × Half) (k : Subkey) : Half × Half := (lr.2, lr.1 ^^^ fFunction lr.2 k)

/-- The halves L_16 and R_16 (43_block_transform.md R143, R149). -/
def finalHalves (block : Block) (key : Key) (dir : Dir) : Half × Half :=
  (subkeyOrder dir (keySchedule key)).foldl feistelRound (initialHalves block)

/-- Steps 4 and 5: IP^-1 of R_16 || L_16 (43_block_transform.md R145). -/
def outputOfHalves (lr : Half × Half) : Block := finalPermutation (lr.2 ++ lr.1)

/-- `CRYPT(block, key, dir)` (43_block_transform.md R140). -/
def crypt (block : Block) (key : Key) (dir : Dir) : Block := outputOfHalves (finalHalves block key dir)

/-- L, R and RND as the rounds of a transform of `block` leave them (10_state.md R25, R26; log 8). -/
def setRoundRegs (block : Block) (dir : Dir) (s : State) : State :=
  (s.setHalves (finalHalves block s.key dir).1 (finalHalves block s.key dir).2).setRnd 16#5

/-- What ENCB and DECB do: derive the subkeys of KEY, transform DIN into DOUT, report success
(43_block_transform.md R147, R148). -/
def blockCommand (dir : Dir) (s : State) : State :=
  complete ((setRoundRegs s.din dir (deriveSubkeys s)).setDout (crypt s.din s.key dir))

/-- ENCB: encrypt one block (43_block_transform.md R147). -/
def execEncb (s : State) : Host.Outcome State Fault Refusal := .next (blockCommand .enc s)

/-- DECB: decrypt one block (43_block_transform.md R148). -/
def execDecb (s : State) : Host.Outcome State Fault Refusal := .next (blockCommand .dec s)

end Sys2Proof.Machine
end

