-- ==== Sys2Proof/Machine/Stream.lean ====
section
/-! DEFINITION. The ECB byte-stream wrapper with padding and the stream commands ENCS and DECS
(spec/44_ecb_stream.md R160 to R174). Lengths are natural numbers; with MAXLEN <= 2^32 - 9 none of them wraps (R173). -/

namespace Sys2Proof.Machine

/-- The pad length N of an input of n bytes, 1 to 8 (44_ecb_stream.md R160). -/
def padLength (n : Nat) : Nat := 8 - n % 8

/-- The number of blocks B of the padded stream (44_ecb_stream.md R162). -/
def paddedBlocks (n : Nat) : Nat := n / 8 + 1

/-- `PS(m)`: an input byte, or the byte of value N from position n on (44_ecb_stream.md R161). -/
def paddedStream (s : State) (n m : Nat) : Byte :=
  if m < n then readByte s .ibuf m else BitVec.ofNat 8 (padLength n)

/-- One block of a stream: `MemWrite(OBUF, 8i, 8, CRYPT(block, KEY, dir))`, with L, R and RND as its rounds leave them
(44_ecb_stream.md R163, R167). -/
def streamBlock (dir : Dir) (block : Block) (i : Nat) (s : State) : State :=
  memWrite (setRoundRegs block dir s) (8 * i) (crypt block s.key dir)

/-- The block loop, blocks 0 to count - 1 in ascending order; BLK is 0 at its start and advances by 1 per block
(44_ecb_stream.md R174, 10_state.md R31; log 9). `source` gives block i of the input. -/
def streamLoop (dir : Dir) (source : Nat → Block) : Nat → State → State
  | 0, s => s.setBlk 0#32
  | count + 1, s => (streamBlock dir (source count) count (streamLoop dir source count s)).setBlk (BitVec.ofNat 32 (count + 1))

/-- ENCS inside the buffers: derive, encrypt the B blocks of the padded stream, `OLEN <- 8 * B`, report success
(44_ecb_stream.md R163). -/
def encryptStream (s : State) : State :=
  let n := s.ilen.toNat
  let b := paddedBlocks n
  complete ((streamLoop .enc (fun i => blockAt (paddedStream s n) (8 * i)) b (deriveSubkeys s)).setOlen (BitVec.ofNat 32 (8 * b)))

/-- ENCS: pad and encrypt the input byte sequence (44_ecb_stream.md R163). With ILEN > MAXLEN, which no run reaches, the
engine would leave its buffers: a fault (log 10). -/
def execEncs (s : State) : Host.Outcome State Fault Refusal :=
  if s.ilen.toNat ≤ Config.maxLen then .next (encryptStream s) else .fault .engineOffset

/-- The decryption of all blocks of the input, still padded, into OBUF, the subkeys derived before it
(44_ecb_stream.md R167). -/
def decryptBlocks (s : State) : State :=
  streamLoop .dec (fun i => memRead s .ibuf (8 * i)) (s.ilen.toNat / 8) (deriveSubkeys s)

/-- Whether the last N of n bytes of OBUF all have the value N (44_ecb_stream.md R170). -/
def padBytesMatch (s : State) (n padN : Nat) : Bool :=
  (List.range padN).all fun j => (readByte s .obuf (n - padN + j)).toNat == padN

/-- The checks after block decryption and their outcome: empty input (44_ecb_stream.md R168), pad length (R169), pad bytes
(R170), text (R171), success (R172), in that order. `s` is the state after block decryption, n = ILEN. -/
def unpad (n : Nat) (s : State) : State :=
  if n = 0 then raiseError (some .decs) .paddingInvalid s
  else
    let padN := (readByte s .obuf (n - 1)).toNat
    if padN = 0 ∨ 8 < padN then raiseError (some .decs) .paddingInvalid s
    else if padBytesMatch s n padN = false then raiseError (some .decs) .paddingInvalid s
    else if Config.textValid (bytesOf s .obuf (n - padN)) = false then raiseError (some .decs) .decodeInvalid s
    else complete (s.setOlen (BitVec.ofNat 32 (n - padN)))

/-- DECS: decrypt the input byte sequence, check and strip the padding (44_ecb_stream.md R165). The length check comes
before anything else (R166). With ILEN > MAXLEN, which no run reaches, the engine would leave its buffers: a fault
(log 10). -/
def execDecs (s : State) : Host.Outcome State Fault Refusal :=
  if s.ilen.toNat % 8 ≠ 0 then .next (raiseError (some .decs) .lengthInvalid s)
  else if s.ilen.toNat ≤ Config.maxLen then .next (unpad s.ilen.toNat (decryptBlocks s))
  else .fault .engineOffset

end Sys2Proof.Machine
end

