-- ==== Sys2Proof/Machine/Dispatch.lean ====
section
/-! DEFINITION. The dispatch of a decoded command to its meaning: one arm per constructor of `Instr`
(spec/45_host_access.md R193). -/

namespace Sys2Proof.Machine

/-- What a command does (30_encoding.md R61). -/
def exec (i : Instr) (s : State) : Host.Outcome State Fault Refusal :=
  match i with
  | .genkey => Sys2Proof.Machine.execGenkey s
  | .keyexp => Sys2Proof.Machine.execKeyexp s
  | .encb => Sys2Proof.Machine.execEncb s
  | .decb => Sys2Proof.Machine.execDecb s
  | .encs => Sys2Proof.Machine.execEncs s
  | .decs => Sys2Proof.Machine.execDecs s

end Sys2Proof.Machine
end

