-- ==== Sys2Proof/Machine/HostAccess.lean ====
section
/-! DEFINITION. The four host operations RD, WR, RDB and WRB, the dispatch of a command by WR CMD
(spec/45_host_access.md R190 to R197), and the reset input (spec/70_reset_and_hazards.md R240, R241). -/

namespace Sys2Proof.Machine

/-- The value `RD reg` returns, zero-extended to 64 bits; a read of CMD returns 0 (45_host_access.md R191; log 12). -/
def readReg (s : State) : Reg → BitVec 64
  | .cmd => 0#64
  | .status => s.status.setWidth 64
  | .key => s.key
  | .din => s.din
  | .dout => s.dout
  | .ilen => s.ilen.setWidth 64
  | .olen => s.olen.setWidth 64
  | .k i => (s.k.get i).setWidth 64

/-- `RD reg`: a read returns the register's value and changes no register (45_host_access.md R191); a reserved number is
refused (R197). -/
def hostRead (num : Nat) (s : State) : Host.Outcome State Fault Refusal :=
  match regOfNumber num with
  | none => .refused (.reservedRegister num)
  | some reg => .next (s.addReply (.reg reg (readReg s reg)))

/-- `WR CMD, v`: a command runs to its end; a word that is no command reports IllegalCommand and changes nothing else
(45_host_access.md R193, 60_exceptions.md R215). -/
def runCommand (v : Byte) (s : State) : Host.Outcome State Fault Refusal :=
  match decode v with
  | .command i => exec i s
  | .illegal _ => .next (raiseError none .illegalCommand s)

/-- The effect of writing a value that fits the register (45_host_access.md R192). A write to a read-only register is
ignored (R196); a value above MAXLEN is refused by ILEN (R197). -/
def writeReg (reg : Reg) (v : BitVec 64) (s : State) : Host.Outcome State Fault Refusal :=
  match reg with
  | .cmd => runCommand (v.setWidth 8) s
  | .key => .next (s.setKey v)
  | .din => .next (s.setDin v)
  | .ilen => if v.toNat ≤ Config.maxLen then .next (s.setIlen (v.setWidth 32)) else .refused (.ilenAboveMaxlen (v.setWidth 32))
  | .status => .next s
  | .dout => .next s
  | .olen => .next s
  | .k _ => .next s

/-- `WR reg, v` (45_host_access.md R192); a reserved number is refused (R197), and so is a value wider than the register
(log 11). -/
def hostWrite (num : Nat) (v : BitVec 64) (s : State) : Host.Outcome State Fault Refusal :=
  match regOfNumber num with
  | none => .refused (.reservedRegister num)
  | some reg => if fitsReg reg v = true then writeReg reg v s else .refused (.valueTooWide num)

/-- `RDB b, a`: one buffer byte is returned and nothing changes (45_host_access.md R194); an offset outside the buffer is
refused (R197). -/
def hostReadByte (b : Buf) (off : Nat) (s : State) : Host.Outcome State Fault Refusal :=
  if off < bufSize b then .next (s.addReply (.byte b off (readByte s b off))) else .refused (.offsetOutOfRange b off)

/-- `WRB a, v`: `IBUF[a] <- v` (45_host_access.md R195); an offset outside IBUF is refused (R197). -/
def hostWriteByte (off : Nat) (v : Byte) (s : State) : Host.Outcome State Fault Refusal :=
  if off < bufSize .ibuf then .next (writeIbuf s off v) else .refused (.offsetOutOfRange .ibuf off)

/-- One host operation (45_host_access.md R190). -/
def hostOp (o : HostOp) (s : State) : Host.Outcome State Fault Refusal :=
  match o with
  | .rd num => hostRead num s
  | .wr num v => hostWrite num v s
  | .rdb b off => hostReadByte b off s
  | .wrb off v => hostWriteByte off v s

/-- The reset input: the engine's state becomes the reset state from any state (70_reset_and_hazards.md R241, R242). The
inputs still pending, the replies already given and the draws already taken belong to the outside world and stay; the
unwritten buffer bytes are fresh free values (log 3, log 7). -/
def assertReset (s : State) : State :=
  { State.reset with port := s.port, replies := s.replies, draws := s.draws, epoch := s.epoch + 1 }

/-- One input: a host operation or reset. -/
def performInput (i : Input) (s : State) : Host.Outcome State Fault Refusal :=
  match i with
  | .op o => hostOp o s
  | .reset => .next (assertReset s)

/-- The input that issues a command word: `WR CMD, v` (45_host_access.md R193). -/
def commandInput (v : Byte) : Input := .op (.wr (regNumber .cmd) (v.setWidth 64))

/-- The oldest pending input is performed; with none pending the engine holds its state (60_exceptions.md R224; log 1). -/
def advance (s : State) : Host.Outcome State Fault Refusal :=
  match s.port with
  | [] => .next s
  | i :: rest => performInput i (s.setPort rest)

end Sys2Proof.Machine
end

