-- ==== Sys2Proof/Machine/HostProgram.lean ====
section
/-! DEFINITION. Host programs: the pseudo-instructions of spec/30_encoding.md R72 and the six calls of
spec/45_host_access.md R198, each as the list of host operations it stands for. -/

namespace Sys2Proof.Machine

/-- `RD reg` (30_encoding.md R71). -/
def rdOp (reg : Reg) : HostOp := .rd (regNumber reg)

/-- `WR reg, value` (30_encoding.md R71). -/
def wrOp (reg : Reg) (v : BitVec 64) : HostOp := .wr (regNumber reg) v

/-- The pseudo-instructions GENKEY to DECS: `WR CMD, <command word>` (30_encoding.md R72). -/
def commandOp (i : Instr) : HostOp := wrOp .cmd ((encode i).setWidth 64)

/-- The writes of `MSG`: byte j of the message to IBUF[from + j]. -/
def msgBytes : List Byte → Nat → List HostOp
  | [], _ => []
  | b :: rest, at0 => .wrb at0 b :: msgBytes rest (at0 + 1)

/-- `MSG b0 b1 ...`: the bytes from offset 0 on, then `WR ILEN, n` (30_encoding.md R72). -/
def msgOps (bytes : List Byte) : List HostOp :=
  msgBytes bytes 0 ++ [wrOp .ilen (BitVec.ofNat 64 bytes.length)]

/-- `OUT`, once the host has read n from OLEN: `RD OLEN`, then `RDB OBUF` of each offset below n (30_encoding.md R72). -/
def outOps (n : Nat) : List HostOp := rdOp .olen :: (List.range n).map (fun a => .rdb .obuf a)

/-- `RD K0` to `RD K15`. -/
def rdSubkeys : List HostOp := (List.finRange 16).map fun i => rdOp (.k i)

/-- `generate_key()` (45_host_access.md R198). -/
def callGenerateKey : List HostOp := [commandOp .genkey, rdOp .key]

/-- `generate_subkeys(key)` (45_host_access.md R198). -/
def callGenerateSubkeys (key : Key) : List HostOp := [wrOp .key key, commandOp .keyexp] ++ rdSubkeys

/-- `encrypt_block(block, key)` (45_host_access.md R198). -/
def callEncryptBlock (block : Block) (key : Key) : List HostOp :=
  [wrOp .key key, wrOp .din block, commandOp .encb, rdOp .dout]

/-- `decrypt_block(block, key)` (45_host_access.md R198). -/
def callDecryptBlock (block : Block) (key : Key) : List HostOp :=
  [wrOp .key key, wrOp .din block, commandOp .decb, rdOp .dout]

/-- `encrypt(plaintext, key)`; `n` is the value the host reads from OLEN (45_host_access.md R198). -/
def callEncrypt (plaintext : List Byte) (key : Key) (n : Nat) : List HostOp :=
  [wrOp .key key] ++ msgOps plaintext ++ [commandOp .encs] ++ outOps n

/-- `decrypt(ciphertext, key)` up to the read of STATUS; if it gives 0x08, `outOps` follow (45_host_access.md R198). -/
def callDecrypt (ciphertext : List Byte) (key : Key) : List HostOp :=
  [wrOp .key key] ++ msgOps ciphertext ++ [commandOp .decs, rdOp .status]

/-- The inputs of a host program. -/
def inputsOf (ops : List HostOp) : List Input := ops.map .op

end Sys2Proof.Machine
end

