-- ==== Sys2Proof/Machine/Step.lean ====
section
/-! DEFINITION. One step of the machine: one input of the port (spec/45_host_access.md R190), and how a command word comes
to be the next input. -/

namespace Sys2Proof.Machine

/-- One step: the oldest pending input is performed; with none pending the engine holds its state. -/
def step (s : State) : Host.Outcome State Fault Refusal := advance s

/-- The state in which the host's next operation is the write of a table word's command to CMD (log 15). -/
def State.withFetchWord (s : State) (nbits w : Nat) : State :=
  s.setPort (commandInput (tableWordByte nbits w) :: s.port)

end Sys2Proof.Machine
end

