-- ==== Sys2Proof/WellFormed.lean ====
section
/-! DEFINITION. Well-formed instructions and host operations. A command has no operand (spec/30_encoding.md R60, R65), so
every term of `Instr` is well formed. A host operation is well formed when it is none of the operations that
spec/45_host_access.md R197 refuses and its value has the register's width (R192). -/

namespace Sys2Proof

/-- Every command is well formed: no command word has a field (30_encoding.md R65). -/
def Instr.wf : Instr → Bool
  | .genkey | .keyexp | .encb | .decb | .encs | .decs => true

/-- Well-formed host operations (45_host_access.md R191, R192, R194, R195, R197). -/
def Machine.HostOp.wf : Machine.HostOp → Bool
  | .rd num => (Machine.regOfNumber num).isSome
  | .wr num v =>
    match Machine.regOfNumber num with
    | none => false
    | some .ilen => Machine.fitsReg .ilen v && decide (v.toNat ≤ Config.maxLen)
    | some reg => Machine.fitsReg reg v
  | .rdb b off => decide (off < Machine.bufSize b)
  | .wrb off _ => decide (off < Machine.bufSize .ibuf)

end Sys2Proof
end

