-- ==== Sys2Proof/Safety.lean ====
section
/-! DEFINITION. What counts as a safe state and a safe run, in the terms the statements use: the invariant of every
reachable state (spec/10_state.md R34), what each command may write (spec/10_state.md R33, spec/30_encoding.md R61), the
decrypted stream and its padding (spec/44_ecb_stream.md R167 to R170), and the key bits that matter
(spec/40_key_schedule.md R88). -/

namespace Sys2Proof.Machine

/-! ### The invariant -/

/-- The six values STATUS takes (10_state.md R16). -/
def statusValues : List (BitVec 8) := [0x00#8, 0x08#8, 0x01#8, 0x02#8, 0x03#8, 0x04#8]

/-- The invariant of every reachable state: STATUS is one of its six values, ILEN <= MAXLEN, OLEN <= MAXLEN + 8
(10_state.md R34), RND <= 16 (R26), and the written bytes of each buffer are in canonical form inside the buffer
(20_memory.md R40; log 18). -/
structure State.Inv (s : State) : Prop where
  status : s.status ∈ statusValues
  ilen : s.ilen.toNat ≤ Config.maxLen
  olen : s.olen.toNat ≤ Config.maxLen + 8
  rnd : s.rnd.toNat ≤ 16
  ibuf : Memory.wf (bufSize .ibuf) s.ibuf = true
  obuf : Memory.wf (bufSize .obuf) s.obuf = true

/-- The states a run reaches from reset, whatever inputs are to come. -/
inductive Reachable : State → Prop where
  /-- The reset state with any inputs to come. -/
  | start (inputs : List Input) : Reachable (State.reset.setPort inputs)
  /-- A step from a reachable state. -/
  | next (s t : State) : Reachable s → step s = .next t → Reachable t

/-! ### What a command may write -/

/-- The registers a command may write, the "writes" column of the opcode map (30_encoding.md R61, 45_host_access.md R199). -/
def writesReg : Instr → Reg → Bool
  | .genkey, reg => reg == .key || reg == .status
  | .keyexp, .k _ => true
  | .keyexp, reg => reg == .status
  | .encb, .k _ | .decb, .k _ => true
  | .encb, reg | .decb, reg => reg == .dout || reg == .status
  | .encs, .k _ | .decs, .k _ => true
  | .encs, reg | .decs, reg => reg == .olen || reg == .status

/-- How many bytes of OBUF, from offset 0, a command may write: 8B for ENCS, ILEN for a DECS that passes its length check,
none otherwise (45_host_access.md R199; 70_reset_and_hazards.md R252). -/
def obufWritten (i : Instr) (s : State) : Nat :=
  match i with
  | .encs => 8 * (s.ilen.toNat / 8 + 1)
  | .decs => if s.ilen.toNat % 8 = 0 then s.ilen.toNat else 0
  | .genkey | .keyexp | .encb | .decb => 0

/-- The registers that `writes` does not name read as before. -/
def sameRegs (writes : Reg → Bool) (s t : State) : Prop :=
  ∀ reg, writes reg = false → readReg t reg = readReg s reg

/-- Every byte of IBUF reads as before (20_memory.md R53). -/
def sameIbuf (s t : State) : Prop := ∀ a, readByte t .ibuf a = readByte s .ibuf a

/-- Every byte of OBUF at an offset from `from0` on reads as before (44_ecb_stream.md R163, R167). -/
def sameObufFrom (from0 : Nat) (s t : State) : Prop := ∀ a, from0 ≤ a → readByte t .obuf a = readByte s .obuf a

/-- The outside world's side of the state, but for the draws, is as before: the inputs pending, the replies given, the
resets performed (log 1, 2, 7). -/
def sameOutside (s t : State) : Prop := t.port = s.port ∧ t.replies = s.replies ∧ t.epoch = s.epoch

/-! ### The streams of ENCS and DECS -/

/-- Byte m of the padded stream of the input: IBUF[m] below ILEN, the pad length from there on (44_ecb_stream.md R160,
R161). -/
def paddedByte (s : State) (m : Nat) : Byte :=
  if m < s.ilen.toNat then readByte s .ibuf m else BitVec.ofNat 8 (8 - s.ilen.toNat % 8)

/-- Byte m of the decrypted, still padded, stream: byte m mod 8 of the decryption of input block m div 8
(44_ecb_stream.md R167, 20_memory.md R43). -/
def decryptedByte (s : State) (m : Nat) : Byte :=
  blockByte (crypt (memRead s .ibuf (8 * (m / 8))) s.key .dec) (m % 8)

/-- The pad length that the decrypted stream ends in (44_ecb_stream.md R169). -/
def decryptedPad (s : State) : Nat := (decryptedByte s (s.ilen.toNat - 1)).toNat

/-- The decrypted stream is not empty and ends in N bytes of value N, 1 <= N <= 8 (44_ecb_stream.md R168 to R170). -/
def goodPadding (s : State) : Prop :=
  0 < s.ilen.toNat ∧ 1 ≤ decryptedPad s ∧ decryptedPad s ≤ 8 ∧
    ∀ m, m < s.ilen.toNat → s.ilen.toNat - decryptedPad s ≤ m → (decryptedByte s m).toNat = decryptedPad s

/-- The bytes left when the padding is stripped (44_ecb_stream.md R171, R172). -/
def unpaddedBytes (s : State) : List Byte := (List.range (s.ilen.toNat - decryptedPad s)).map (decryptedByte s)

/-! ### The key bits that matter -/

/-- Two keys agree on the 56 bits the schedule reads, all but the least-significant bit of each byte
(40_key_schedule.md R88). -/
def sameUsedBits (key key' : Key) : Prop := ∀ j, j < 64 → j % 8 ≠ 0 → key.getLsbD j = key'.getLsbD j

/-! ### Reference tables -/

/-- What RD of each register number returns (10_state.md R27, 45_host_access.md R191). -/
def registerReads (s : State) : List (Nat × Reg × BitVec 64) :=
  [(0x00, .cmd, 0#64), (0x01, .status, s.status.setWidth 64), (0x02, .key, s.key), (0x03, .din, s.din),
   (0x04, .dout, s.dout), (0x05, .ilen, s.ilen.setWidth 64), (0x06, .olen, s.olen.setWidth 64)] ++
  (List.finRange 16).map fun i => (0x10 + i.val, .k i, s.k[i].setWidth 64)

/-- The eight S-boxes with their flat form: digit g of the word, counted from the left, is SROM_j[g]
(42_f_function.md R137). -/
def sboxRoms : List (List (List Nat) × Nat) :=
  [(sbox1, 0xE04FD7142EF2BD813AA66CCB599503784F1CE882D46921B7F5CB937E3AA0560D),
   (sbox2, 0xF31D84E76FB2384E9C7021DAC6095BA50DE87AB1A34FD4125B86C76C90352EF9),
   (sbox3, 0xAD0790E96334F65A12D8C57EBC4B2F81D16A4D9086F93807B41F2EC35BA5E27C),
   (sbox4, 0x7DD8EB35066F90A31427825CB1CA4EF9A36F9006CAB17DD8F91435EB5C27824E),
   (sbox5, 0x2ECB421C74A7BD6185503FFAD309E8964B281CB7A1DE728DF69FC0596A3405E3),
   (sbox6, 0xCA1FA4F2972C698506D13D4EE07B53B894E3F25C2985CF3A7B0E41A716D0B86D),
   (sbox7, 0x4DB02BE7F40981DA3EC3957C52AF6816164BBDD8C1347AE7A9F5608F0E52932C),
   (sbox8, 0xD12F8D486AF3B714AC9536EB500EC97272B14E1794CAE82D0F6CA9D0F335568B)]

end Sys2Proof.Machine
end

