-- ==== Sys2Proof/Certificates/Slice0/Obligations.lean ====
section
/-! DEFINITION. The statements about the DES engine that the provers settle: the numbered rules of spec/ that say what a
command, a host operation or reset does. -/

open Sys2Proof Sys2Proof.Machine

/-! ### Command words -/

/-- 30_encoding.md R64: decoding is total on the 256 values, by comparing with the six values of R61. -/
def Obligations.DecodeComparesWithTheSixWords : Prop :=
  ∀ v : Byte, decode v =
    if v = 0x01#8 then .command .genkey else if v = 0x02#8 then .command .keyexp
    else if v = 0x04#8 then .command .encb else if v = 0x05#8 then .command .decb
    else if v = 0x06#8 then .command .encs else if v = 0x07#8 then .command .decs
    else .illegal v

/-- 30_encoding.md R60, R61: decoding the command word of an instruction gives the instruction, and ZERO is 0000. -/
def Obligations.DecodeOfEncodeIsTheInstruction : Prop :=
  ∀ i : Instr, i.wf = true → decode (encode i) = .command i ∧ (encode i).extractLsb' 4 4 = 0b0000#4

/-- 30_encoding.md R62, R63, 60_exceptions.md R215: writing a word that is no command, one with a bit of 7:4 set among
them, reports IllegalCommand and changes nothing else. -/
def Obligations.IllegalCommandWordOnlySetsStatus : Prop :=
  ∀ (s : State) (rest : List Input) (v : Byte),
    v ∉ [0x01#8, 0x02#8, 0x04#8, 0x05#8, 0x06#8, 0x07#8] →
    s.port = .op (.wr 0x00 (v.setWidth 64)) :: rest →
    step s = .next { s with port := rest, status := 0x04#8 }

/-- 45_host_access.md R193: when the oldest pending input is WR CMD of a word that decodes to a well-formed command, the
step removes the input (log 1) and runs exactly that command. -/
def Obligations.StepRunsTheDecodedCommand : Prop :=
  ∀ (s : State) (rest : List Input) (v : Byte) (i : Instr),
    s.port = .op (.wr 0x00 (v.setWidth 64)) :: rest → decode v = .command i → i.wf = true →
    step s = exec i { s with port := rest }

/-- The next step after `withFetchWord` runs the table word's command on the state as it was (log 15). -/
def Obligations.FetchWordRunsNext : Prop :=
  ∀ (s : State) (nbits w : Nat) (i : Instr), decodeTableWord nbits w = some i →
    step (s.withFetchWord nbits w) = exec i s

/-! ### Host operations -/

/-- 45_host_access.md R191: RD returns the register's current value, 0 for CMD, and writes no register or buffer; the
input is removed and the value is handed to the host (log 1, 2, 12). -/
def Obligations.ReadRegisterReturnsItsValue : Prop :=
  ∀ (s : State) (rest : List Input) (num : Nat) (reg : Reg) (v : BitVec 64),
    (num, reg, v) ∈ registerReads s → s.port = .op (.rd num) :: rest →
    step s = .next { s with port := rest, replies := .reg reg v :: s.replies }

/-- 45_host_access.md R192: WR writes KEY and DIN, writes ILEN up to MAXLEN and refuses it above, runs a command for CMD,
and does nothing to STATUS, DOUT, OLEN and K[i]; the value has the register's width. -/
def Obligations.WriteRegisterByNumber : Prop :=
  ∀ (s : State) (rest : List Input) (num : Nat) (v : BitVec 64), s.port = .op (.wr num v) :: rest →
    (num = 0x02 → step s = .next { s with port := rest, key := v }) ∧
    (num = 0x03 → step s = .next { s with port := rest, din := v }) ∧
    (num = 0x05 → v.toNat ≤ Config.maxLen → step s = .next { s with port := rest, ilen := v.setWidth 32 }) ∧
    (num = 0x05 → Config.maxLen < v.toNat → ∃ reason, step s = .refused reason) ∧
    (num = 0x00 → v.toNat < 2 ^ 8 → step s =
      match decode (v.setWidth 8) with
      | .command i => exec i { s with port := rest }
      | .illegal _ => .next { s with port := rest, status := 0x04#8 }) ∧
    (num = 0x01 ∧ v.toNat < 2 ^ 8 ∨ num = 0x04 ∨ num = 0x06 ∧ v.toNat < 2 ^ 32 ∨
        0x10 ≤ num ∧ num < 0x20 ∧ v.toNat < 2 ^ 48 →
      step s = .next { s with port := rest })

/-- 45_host_access.md R196: a write to a read-only register changes no state, and a read of CMD returns 0. -/
def Obligations.ReadOnlyWritesAreIgnored : Prop :=
  ∀ (s : State) (rest : List Input) (reg : Reg),
    (∀ v : BitVec 64, reg = .status ∨ reg = .dout ∨ reg = .olen ∨ (∃ i, reg = .k i) → v.toNat < 2 ^ regWidth reg →
      s.port = .op (.wr (regNumber reg) v) :: rest → step s = .next { s with port := rest }) ∧
    (s.port = .op (.rd 0x00) :: rest → step s = .next { s with port := rest, replies := .reg .cmd 0#64 :: s.replies })

/-- 45_host_access.md R197: an access to a reserved register number, a buffer offset out of range and a WR to ILEN above
MAXLEN are refused. -/
def Obligations.UndefinedAccessesAreRefused : Prop :=
  ∀ (s : State) (rest : List Input) (o : HostOp), s.port = .op o :: rest →
    ((∃ num, (0x07 ≤ num ∧ num ≤ 0x0F ∨ 0x20 ≤ num) ∧ (o = .rd num ∨ ∃ v, o = .wr num v)) ∨
      (∃ a, Config.maxLen ≤ a ∧ (o = .rdb .ibuf a ∨ ∃ b, o = .wrb a b)) ∨
      (∃ a, Config.maxLen + 8 ≤ a ∧ o = .rdb .obuf a) ∨
      (∃ v, Config.maxLen < v.toNat ∧ o = .wr 0x05 v)) →
    ∃ reason, step s = .refused reason

/-- 45_host_access.md R194: RDB returns IBUF[a] for a < MAXLEN and OBUF[a] for a < MAXLEN + 8 and changes nothing; beyond
that it is refused. -/
def Obligations.ReadBufferByteReturnsIt : Prop :=
  ∀ (s : State) (rest : List Input) (b : Buf) (a : Nat), s.port = .op (.rdb b a) :: rest →
    (a < (match b with | .ibuf => Config.maxLen | .obuf => Config.maxLen + 8) →
      step s = .next { s with port := rest, replies := .byte b a (readByte s b a) :: s.replies }) ∧
    ((match b with | .ibuf => Config.maxLen | .obuf => Config.maxLen + 8) ≤ a → ∃ reason, step s = .refused reason)

/-- 45_host_access.md R195: WRB writes one byte of IBUF and changes no other byte of IBUF and nothing else; an offset
outside IBUF is refused. -/
def Obligations.WriteBufferByteWritesOneByte : Prop :=
  ∀ (s : State) (rest : List Input) (a : Nat) (b : Byte), s.port = .op (.wrb a b) :: rest →
    (a < Config.maxLen → ∃ m, step s = .next { s with port := rest, ibuf := m } ∧
      ∀ x, readByte { s with port := rest, ibuf := m } .ibuf x = if x = a then b else readByte s .ibuf x) ∧
    (Config.maxLen ≤ a → ∃ reason, step s = .refused reason)

/-- 45_host_access.md R190, 60_exceptions.md R224: with no host operation and no reset pending nothing happens (the idle
step is the model's, log 1). -/
def Obligations.IdleEngineHoldsItsState : Prop := ∀ s : State, s.port = [] → step s = .next s

/-! ### Reset -/

/-- 10_state.md R28: the values the spec gives for reset. That an unspecified buffer byte reads as a free value is the
model's choice among the readings R28 offers (log 7). -/
def Obligations.ResetValues : Prop :=
  State.reset.key = 0#64 ∧ State.reset.din = 0#64 ∧ State.reset.dout = 0#64 ∧ (∀ i : Fin 16, State.reset.k[i] = 0#48) ∧
  State.reset.status = 0x00#8 ∧ State.reset.ilen = 0#32 ∧ State.reset.olen = 0#32 ∧
  (∀ a, readByte State.reset .ibuf a = Config.ibufUnwritten 0 a) ∧
  (∀ a, readByte State.reset .obuf a = Config.obufUnwritten 0 a) ∧ State.reset.k = keySchedule State.reset.key

/-- 70_reset_and_hazards.md R241, R242: the reset input gives KEY, DIN, DOUT, K, ILEN, OLEN and STATUS zero from any
state; the buffer bytes are unspecified again (fresh free values, log 7) and the outside world's side stays (log 3). -/
def Obligations.ResetInputGivesTheResetState : Prop :=
  ∀ (s : State) (rest : List Input), s.port = .reset :: rest →
    ∃ t, step s = .next t ∧ t.key = 0#64 ∧ t.din = 0#64 ∧ t.dout = 0#64 ∧ (∀ i : Fin 16, t.k[i] = 0#48) ∧ t.ilen = 0#32 ∧
      t.olen = 0#32 ∧ t.status = 0x00#8 ∧
      (∀ a, readByte t .ibuf a = Config.ibufUnwritten (s.epoch + 1) a) ∧
      (∀ a, readByte t .obuf a = Config.obufUnwritten (s.epoch + 1) a) ∧
      t.port = rest ∧ t.replies = s.replies ∧ t.draws = s.draws

/-- 70_reset_and_hazards.md R243: what the first command after reset gives. -/
def Obligations.FirstCommandsAfterReset : Prop :=
  (∃ t, exec .keyexp State.reset = .next t ∧ (∀ i : Fin 16, t.k[i] = 0#48) ∧ t.status = 0x08#8) ∧
  (∃ t, exec .encb State.reset = .next t ∧ t.dout = 0x8CA64DE9C1B123A7#64) ∧
  (∃ t, exec .decb State.reset = .next t ∧ t.dout = 0x8CA64DE9C1B123A7#64) ∧
  (∃ t, exec .encs State.reset = .next t ∧ memRead t .obuf 0 = 0x7E422822773666C0#64 ∧ t.olen = 8#32) ∧
  (∃ t, exec .decs State.reset = .next t ∧ t.status = 0x02#8)

/-! ### The permutation network -/

/-- 41_permutation.md R102: table entries lie in range, and `permute` is linear over exclusive-or and keeps the all-zero
and the all-one value. -/
def Obligations.PermuteIsLinear : Prop :=
  ((∀ p ∈ pc1Table, 1 ≤ p ∧ p ≤ 64) ∧ (∀ p ∈ pc2Table, 1 ≤ p ∧ p ≤ 56) ∧ (∀ p ∈ ipTable, 1 ≤ p ∧ p ≤ 64) ∧
    (∀ p ∈ fpTable, 1 ≤ p ∧ p ≤ 64) ∧ (∀ p ∈ eTable, 1 ≤ p ∧ p ≤ 32) ∧ (∀ p ∈ pTable, 1 ≤ p ∧ p ≤ 32)) ∧
  ∀ (w : Nat) (table : List Nat) (a b : BitVec w),
    permute table.length table (a ^^^ b) = permute table.length table a ^^^ permute table.length table b ∧
    permute table.length table (0#w) = 0#table.length ∧
    ((∀ p ∈ table, 1 ≤ p ∧ p ≤ w) → permute table.length table (BitVec.allOnes w) = BitVec.allOnes table.length)

/-- 41_permutation.md R105: IP^-1 is the inverse of IP, as functions and entry by entry. -/
def Obligations.FinalPermutationInvertsInitial : Prop :=
  (∀ x : Block, finalPermutation (initialPermutation x) = x ∧ initialPermutation (finalPermutation x) = x) ∧
  ∀ m, 1 ≤ m → m ≤ 64 →
    fpTable.getD (ipTable.getD (m - 1) 0 - 1) 0 = m ∧ ipTable.getD (fpTable.getD (m - 1) 0 - 1) 0 = m

/-- 20_memory.md R42, R43: blocks are big-endian: MemRead weighs the byte at the lowest offset most, and MemWrite puts the
most-significant byte at the lowest offset and changes no other byte of OBUF and nothing else. -/
def Obligations.BlocksAreBigEndian : Prop :=
  (∀ (s : State) (b : Buf) (a : Nat), (memRead s b a).toNat =
    (readByte s b a).toNat * 2 ^ 56 + (readByte s b (a + 1)).toNat * 2 ^ 48 + (readByte s b (a + 2)).toNat * 2 ^ 40 +
    (readByte s b (a + 3)).toNat * 2 ^ 32 + (readByte s b (a + 4)).toNat * 2 ^ 24 + (readByte s b (a + 5)).toNat * 2 ^ 16 +
    (readByte s b (a + 6)).toNat * 2 ^ 8 + (readByte s b (a + 7)).toNat) ∧
  ∀ (s : State) (a : Nat) (v : Block), ∃ m, memWrite s a v = { s with obuf := m } ∧
    (∀ j, j < 8 → (readByte (memWrite s a v) .obuf (a + j)).toNat = v.toNat / 2 ^ (8 * (7 - j)) % 2 ^ 8) ∧
    ∀ x, x < a ∨ a + 8 ≤ x → readByte (memWrite s a v) .obuf x = readByte s .obuf x

/-! ### The key schedule -/

/-- 40_key_schedule.md R84: `rotl28` by 1 or 2 is the rotation within 28 bits, in both forms the rule gives. -/
def Obligations.RotationWithinTwentyEightBits : Prop :=
  ∀ (x : KeyHalf) (n : Nat), n = 1 ∨ n = 2 →
    (rotl28 x n).toNat = (x.toNat <<< n) % 2 ^ 28 + (x.toNat >>> (28 - n)) ∧
    ∀ i, i < 28 → (rotl28 x n).getLsbD i = if i < n then x.getLsbD (28 - n + i) else x.getLsbD (i - n)

/-- 40_key_schedule.md R80, R82, R85, R87: the subkeys are PC-2 of the halves of PC-1, rotated round by round. -/
def Obligations.SubkeysFollowTheRoundIteration : Prop :=
  ∀ key : Key, ∃ (C D : Nat → KeyHalf),
    C 0 = (permute 56 pc1Table key).extractLsb' 28 28 ∧ D 0 = (permute 56 pc1Table key).extractLsb' 0 28 ∧
    ∀ (i : Nat) (h : i < 16),
      C (i + 1) = rotl28 (C i) (rotTable.getD i 0) ∧ D (i + 1) = rotl28 (D i) (rotTable.getD i 0) ∧
      (keySchedule key)[i] = permute 48 pc2Table (C (i + 1) ++ D (i + 1) : BitVec 56)

/-- 40_key_schedule.md R88: the schedule reads exactly the 56 bits that are not the least-significant bit of a byte: two
keys give the same subkeys exactly when they agree on those. -/
def Obligations.ScheduleReadsExactlyTheUsedBits : Prop :=
  ∀ key key' : Key, keySchedule key = keySchedule key' ↔ sameUsedBits key key'

/-- 40_key_schedule.md R88, 43_block_transform.md R151: changing ignored bits of KEY changes the outcome of no command but
KEY itself. -/
def Obligations.IgnoredKeyBitsChangeNoResult : Prop :=
  ∀ (i : Instr) (s t : State) (key' : Key), i ≠ .genkey → sameUsedBits s.key key' → exec i s = .next t →
    exec i { s with key := key' } = .next { t with key := key' }

/-- 40_key_schedule.md R90: C_16 = C_0 and D_16 = D_0; the subkeys of the all-zero and all-one keys; constant halves give
sixteen equal subkeys, and then encryption and decryption are the same function. -/
def Obligations.ConstantHalvesGiveEqualSubkeys : Prop :=
  (∀ key : Key, finalKeyHalves key = initialKeyHalves key ∧ (keySchedule key)[15] = subkeyOfHalves (initialKeyHalves key)) ∧
  (∀ i : Fin 16, (keySchedule 0#64)[i] = 0#48 ∧ (keySchedule (BitVec.allOnes 64))[i] = BitVec.allOnes 48) ∧
  (∀ key : Key, (initialKeyHalves key).1 ∈ [0#28, BitVec.allOnes 28] → (initialKeyHalves key).2 ∈ [0#28, BitVec.allOnes 28] →
    (∀ i : Fin 16, (keySchedule key)[i] = (keySchedule key)[0]) ∧ ∀ block, crypt block key .enc = crypt block key .dec) ∧
  (∀ key ∈ [0x0101010101010101#64, 0xFEFEFEFEFEFEFEFE#64, 0x1F1F1F1F0E0E0E0E#64, 0xE0E0E0E0F1F1F1F1#64],
    ∀ i : Fin 16, (keySchedule key)[i] = (keySchedule key)[0])

/-! ### The F-function and the block transform -/

/-- 42_f_function.md R124, R125, R134: nibble j of the S-box output is S_j at the row of the outer bits and the column of
the inner bits of group j, and of no other group. -/
def Obligations.SubstitutionIsLaneWise : Prop :=
  ∀ (x : BitVec 48) (j : Nat) (h : j < 8),
    ((substitute x).extractLsb' (28 - 4 * j) 4).toNat =
      (([sbox1, sbox2, sbox3, sbox4, sbox5, sbox6, sbox7, sbox8][j]'h).getD
        (2 * (x.getLsbD (42 - 6 * j + 5)).toNat + (x.getLsbD (42 - 6 * j)).toNat) []).getD
        (8 * (x.getLsbD (42 - 6 * j + 4)).toNat + 4 * (x.getLsbD (42 - 6 * j + 3)).toNat +
          2 * (x.getLsbD (42 - 6 * j + 2)).toNat + (x.getLsbD (42 - 6 * j + 1)).toNat) 0

/-- 42_f_function.md R137: the S-boxes as 64-entry ROMs. -/
def Obligations.SboxLookupsMatchTheRoms : Prop :=
  ∀ row ∈ sboxRoms, ∀ g : BitVec 6, (sboxLookup row.1 g).toNat = row.2 / 16 ^ (63 - g.toNat) % 16

/-- 43_block_transform.md R140, R142 to R145: CRYPT is IP, sixteen rounds over one of the two subkey orders, and IP^-1 of
R_16 || L_16. -/
def Obligations.CryptFollowsTheRoundFormula : Prop :=
  ∀ (block : Block) (key : Key) (dir : Dir), ∃ (L R : Nat → Half),
    L 0 = (permute 64 ipTable block).extractLsb' 32 32 ∧ R 0 = (permute 64 ipTable block).extractLsb' 0 32 ∧
    (∀ (n : Nat) (h1 : 1 ≤ n) (h2 : n ≤ 16),
      L n = R (n - 1) ∧
      R n = L (n - 1) ^^^ fFunction (R (n - 1))
        (match dir with | .enc => (keySchedule key)[n - 1] | .dec => (keySchedule key)[16 - n])) ∧
    crypt block key dir = permute 64 fpTable (R 16 ++ L 16 : BitVec 64)

/-- 43_block_transform.md R150: decryption undoes encryption and encryption undoes decryption. -/
def Obligations.BlockRoundTrip : Prop :=
  ∀ (block : Block) (key : Key),
    crypt (crypt block key .enc) key .dec = block ∧ crypt (crypt block key .dec) key .enc = block

/-- 43_block_transform.md R151: CRYPT is a bijection on blocks; equal subkeys make both directions one function; keys that
differ only in ignored bits give the same function. -/
def Obligations.CryptIsABijection : Prop :=
  (∀ (key : Key) (dir : Dir), Function.Bijective fun block => crypt block key dir) ∧
  (∀ key : Key, (∀ i : Fin 16, (keySchedule key)[i] = (keySchedule key)[0]) →
    ∀ block, crypt block key .enc = crypt block key .dec) ∧
  (∀ (key key' : Key) (dir : Dir) (block : Block), sameUsedBits key key' → crypt block key dir = crypt block key' dir)

/-- 94_derived_vectors.md section 4.3: complementing all bits of KEY and of the block complements all bits of the result,
in either direction. -/
def Obligations.ComplementProperty : Prop :=
  ∀ (block : Block) (key : Key) (dir : Dir), crypt (~~~block) (~~~key) dir = ~~~(crypt block key dir)

/-! ### The commands -/

/-- 40_key_schedule.md R92: GENKEY completes in every state: KEY is the draw times 2^8, STATUS is 0x08, nothing else
changes but the draw being taken (log 5). -/
def Obligations.GenkeyCompletes : Prop :=
  ∀ s : State, ∃ t, exec .genkey s = .next t ∧ t.key.toNat = (Config.rng s.draws).toNat * 2 ^ 8 ∧ t.status = 0x08#8 ∧
    t = { s with key := t.key, status := t.status, draws := s.draws + 1 }

/-- 40_key_schedule.md R91: KEYEXP completes in every state with K = KS(KEY) and STATUS 0x08, changes no other register
and no buffer byte, and run twice gives the same K. -/
def Obligations.KeyexpCompletes : Prop :=
  ∀ s : State, ∃ t, exec .keyexp s = .next t ∧ t.k = keySchedule s.key ∧ t.status = 0x08#8 ∧
    sameRegs (writesReg .keyexp) s t ∧ sameIbuf s t ∧ sameObufFrom 0 s t ∧ sameOutside s t ∧
    t.draws = s.draws ∧ ∃ u, exec .keyexp t = .next u ∧ u.k = t.k

/-- 43_block_transform.md R147: ENCB completes in every state with DOUT = CRYPT(DIN, KEY, enc), K = KS(KEY) and STATUS
0x08, and changes no other register and no buffer byte. -/
def Obligations.EncbCompletes : Prop :=
  ∀ s : State, ∃ t, exec .encb s = .next t ∧ t.dout = crypt s.din s.key .enc ∧ t.k = keySchedule s.key ∧ t.status = 0x08#8 ∧
    sameRegs (writesReg .encb) s t ∧ sameIbuf s t ∧ sameObufFrom 0 s t ∧ sameOutside s t ∧ t.draws = s.draws

/-- 43_block_transform.md R148: DECB completes in every state with DOUT = CRYPT(DIN, KEY, dec), K in schedule order and
STATUS 0x08, and changes no other register and no buffer byte. -/
def Obligations.DecbCompletes : Prop :=
  ∀ s : State, ∃ t, exec .decb s = .next t ∧ t.dout = crypt s.din s.key .dec ∧ t.k = keySchedule s.key ∧ t.status = 0x08#8 ∧
    sameRegs (writesReg .decb) s t ∧ sameIbuf s t ∧ sameObufFrom 0 s t ∧ sameOutside s t ∧ t.draws = s.draws

/-- 43_block_transform.md R147, R148, R150: ENCB, the host copying DOUT to DIN, then DECB gives the block back. -/
def Obligations.EncbThenDecbRestoresTheBlock : Prop :=
  ∀ s : State, ∃ t u, exec .encb s = .next t ∧ exec .decb { t with din := t.dout } = .next u ∧ u.dout = s.din ∧
    u.k = keySchedule s.key ∧ u.status = 0x08#8

/-- 44_ecb_stream.md R160 to R163: ENCS completes whenever ILEN <= MAXLEN: block i of OBUF is the encryption of block i of
the padded stream, OLEN is 8B, K = KS(KEY), STATUS is 0x08, OBUF from 8B on, every other register and IBUF are as before. -/
def Obligations.EncsCompletes : Prop :=
  ∀ s : State, s.ilen.toNat ≤ Config.maxLen →
    ∃ t, exec .encs s = .next t ∧ t.status = 0x08#8 ∧ t.k = keySchedule s.key ∧
      t.olen.toNat = 8 * (s.ilen.toNat / 8 + 1) ∧
      (∀ i, i < s.ilen.toNat / 8 + 1 →
        memRead t .obuf (8 * i) = crypt (blockAt (paddedByte s) (8 * i)) s.key .enc) ∧
      sameRegs (writesReg .encs) s t ∧ sameIbuf s t ∧ sameObufFrom (8 * (s.ilen.toNat / 8 + 1)) s t ∧ sameOutside s t ∧
      t.draws = s.draws

/-- 44_ecb_stream.md R160: N = 8 - n mod 8 is one of 1 to 8, the padded length is 8 * (n div 8 + 1) and more than n; for an
aligned n, N is 8 and the block after the input is eight bytes of value 8. -/
def Obligations.PaddingAlwaysAdds : Prop :=
  ∀ n : Nat, padLength n = 8 - n % 8 ∧ 1 ≤ padLength n ∧ padLength n ≤ 8 ∧ n + padLength n = 8 * (n / 8 + 1) ∧
    n < n + padLength n ∧
    (n % 8 = 0 → padLength n = 8 ∧ ∀ s : State, blockAt (paddedStream s n) n = 0x0808080808080808#64)

/-- 44_ecb_stream.md R164: an output block depends on its block of the padded stream and KEY only, whatever its position and
whatever else the two states hold, so equal blocks give equal output blocks; and repeating ENCS gives the same output. -/
def Obligations.EcbEqualBlocksGiveEqualBlocks : Prop :=
  ∀ (s s' t t' : State), s.key = s'.key → exec .encs s = .next t → exec .encs s' = .next t' →
    (∀ i j, i < s.ilen.toNat / 8 + 1 → j < s'.ilen.toNat / 8 + 1 →
      blockAt (paddedByte s) (8 * i) = blockAt (paddedByte s') (8 * j) →
      ∀ m, m < 8 → readByte t .obuf (8 * i + m) = readByte t' .obuf (8 * j + m)) ∧
    ∃ u, exec .encs t = .next u ∧ u.olen = t.olen ∧ ∀ a, a < t.olen.toNat → readByte u .obuf a = readByte t .obuf a

/-- 44_ecb_stream.md R166, 60_exceptions.md R212: DECS with ILEN no multiple of 8 changes OLEN to 0 and STATUS to 0x01 and
nothing else. -/
def Obligations.DecsRejectsBadLength : Prop :=
  ∀ s : State, s.ilen.toNat % 8 ≠ 0 → exec .decs s = .next { s with olen := 0#32, status := 0x01#8 }

/-- 44_ecb_stream.md R168, R169, R170, 60_exceptions.md R213: DECS with ILEN = 0, or a pad length of 0 or above 8, or a
wrong pad byte, reports PaddingInvalid; the decrypted stream stays in OBUF, K = KS(KEY), OLEN = 0. -/
def Obligations.DecsRejectsBadPadding : Prop :=
  ∀ s : State, s.ilen.toNat % 8 = 0 → s.ilen.toNat ≤ Config.maxLen →
    (s.ilen.toNat = 0 ∨ decryptedPad s = 0 ∨ 8 < decryptedPad s ∨
      ∃ m, m < s.ilen.toNat ∧ s.ilen.toNat - decryptedPad s ≤ m ∧ (decryptedByte s m).toNat ≠ decryptedPad s) →
    ∃ t, exec .decs s = .next t ∧ t.status = 0x02#8 ∧ t.olen = 0#32 ∧ t.k = keySchedule s.key ∧
      (∀ m, m < s.ilen.toNat → readByte t .obuf m = decryptedByte s m) ∧
      sameRegs (writesReg .decs) s t ∧ sameIbuf s t ∧ sameObufFrom s.ilen.toNat s t ∧ sameOutside s t ∧ t.draws = s.draws

/-- 44_ecb_stream.md R171, R172, 60_exceptions.md R214: DECS with good padding succeeds with OLEN = n - N when the unpadded
bytes are valid text, and reports DecodeInvalid with OLEN = 0 when they are not; the decrypted stream is in OBUF and
K = KS(KEY) in both cases. -/
def Obligations.DecsCompletesOnGoodPadding : Prop :=
  ∀ s : State, s.ilen.toNat % 8 = 0 → s.ilen.toNat ≤ Config.maxLen → goodPadding s →
    ∃ t, exec .decs s = .next t ∧
      t.status = (if Config.textValid (unpaddedBytes s) = true then 0x08#8 else 0x03#8) ∧
      t.olen.toNat = (if Config.textValid (unpaddedBytes s) = true then s.ilen.toNat - decryptedPad s else 0) ∧
      t.k = keySchedule s.key ∧ (∀ m, m < s.ilen.toNat → readByte t .obuf m = decryptedByte s m) ∧
      sameRegs (writesReg .decs) s t ∧ sameIbuf s t ∧ sameObufFrom s.ilen.toNat s t ∧ sameOutside s t ∧ t.draws = s.draws

/-- 44_ecb_stream.md R175 (1): ENCS, the host copying OBUF[0..OLEN-1] to IBUF and OLEN to ILEN, then DECS under the same key
leaves the message in OBUF, and succeeds with its length when the message is valid text. -/
def Obligations.StreamRoundTrip : Prop :=
  ∀ (s t u : State), exec .encs s = .next t → u.key = s.key → u.ilen = t.olen → u.ilen.toNat ≤ Config.maxLen →
    (∀ a, a < t.olen.toNat → readByte u .ibuf a = readByte t .obuf a) →
    ∃ v, exec .decs u = .next v ∧
      v.status = (if Config.textValid (bytesOf s .ibuf s.ilen.toNat) = true then 0x08#8 else 0x03#8) ∧
      v.olen = (if Config.textValid (bytesOf s .ibuf s.ilen.toNat) = true then s.ilen else 0#32) ∧
      ∀ a, a < s.ilen.toNat → readByte v .obuf a = readByte s .ibuf a

/-! ### Rules over all commands -/

/-- 10_state.md R33: a command changes only the registers and OBUF bytes its rule names; IBUF, the inputs and replies are
as before, and only GENKEY takes a draw. -/
def Obligations.CommandFrame : Prop :=
  ∀ (i : Instr) (s t : State), exec i s = .next t →
    sameRegs (writesReg i) s t ∧ sameIbuf s t ∧ sameObufFrom (obufWritten i s) s t ∧ sameOutside s t ∧
    (i ≠ .genkey → t.draws = s.draws)

/-- 10_state.md R24 to R26, with the model's reading of what stays after a command (log 8, 9): GENKEY touches no working
register; a derivation leaves C_16, D_16 and RND = 16; a block transform leaves L_16 and R_16; the block loop leaves BLK at
the number of blocks. -/
def Obligations.WorkingRegistersAfterCommands : Prop :=
  ∀ (i : Instr) (s t : State), exec i s = .next t →
    (i = .genkey ∨ (i = .decs ∧ s.ilen.toNat % 8 ≠ 0) →
      t.c = s.c ∧ t.d = s.d ∧ t.l = s.l ∧ t.r = s.r ∧ t.rnd = s.rnd ∧ t.blk = s.blk) ∧
    (i ≠ .genkey → ¬(i = .decs ∧ s.ilen.toNat % 8 ≠ 0) → (t.c, t.d) = initialKeyHalves s.key ∧ t.rnd = 16#5) ∧
    (i = .keyexp → t.l = s.l ∧ t.r = s.r ∧ t.blk = s.blk) ∧
    (i = .encb → outputOfHalves (t.l, t.r) = t.dout ∧ t.blk = s.blk) ∧
    (i = .decb → outputOfHalves (t.l, t.r) = t.dout ∧ t.blk = s.blk) ∧
    (i = .encs → outputOfHalves (t.l, t.r) = memRead t .obuf (8 * (s.ilen.toNat / 8)) ∧
      t.blk.toNat = s.ilen.toNat / 8 + 1) ∧
    (i = .decs → s.ilen.toNat % 8 = 0 → t.blk.toNat = s.ilen.toNat / 8 ∧
      (s.ilen.toNat = 0 → t.l = s.l ∧ t.r = s.r) ∧
      (0 < s.ilen.toNat → outputOfHalves (t.l, t.r) = memRead t .obuf (s.ilen.toNat - 8)))

/-- 10_state.md R16, 45_host_access.md R199: every command that completes writes STATUS: 0x08, or for DECS one of its
error codes, with VALID = 1 exactly when ERR = 0. -/
def Obligations.EveryCommandReportsItsOutcome : Prop :=
  ∀ (i : Instr) (s t : State), exec i s = .next t →
    (i ≠ .decs → t.status = 0x08#8) ∧ t.status ∈ [0x08#8, 0x01#8, 0x02#8, 0x03#8] ∧
    (validField t.status = true ↔ errField t.status = 0#3)

/-- 10_state.md R30, 60_exceptions.md R219: no command reads STATUS, so an error left in it changes nothing, and the next
command overwrites it. -/
def Obligations.StatusIsNeverRead : Prop :=
  ∀ (i : Instr) (s t : State) (v : BitVec 8), exec i s = .next t → exec i { s with status := v } = .next t

/-- 10_state.md R15, R23: no command depends on what an earlier one left in K, DOUT, OLEN or the working registers: the
results of ENCB and DECB are functions of KEY and DIN. -/
def Obligations.BlockResultsDependOnKeyAndBlock : Prop :=
  ∀ (i : Instr) (s s' t t' : State), i = .encb ∨ i = .decb → s.key = s'.key → s.din = s'.din →
    exec i s = .next t → exec i s' = .next t' → t.dout = t'.dout ∧ t.k = t'.k ∧ t.status = t'.status

/-- 45_host_access.md R199: the results of ENCS and DECS are functions of KEY, ILEN and IBUF below ILEN. -/
def Obligations.StreamResultsDependOnTheirInputs : Prop :=
  ∀ (i : Instr) (s s' t t' : State), i = .encs ∨ i = .decs → s.key = s'.key → s.ilen = s'.ilen →
    (∀ a, a < s.ilen.toNat → readByte s .ibuf a = readByte s' .ibuf a) →
    exec i s = .next t → exec i s' = .next t' →
    t.status = t'.status ∧ t.olen = t'.olen ∧ (i = .encs ∨ s.ilen.toNat % 8 = 0 → t.k = t'.k) ∧
    ∀ a, a < obufWritten i s → readByte t .obuf a = readByte t' .obuf a

/-! ### Rules over all steps -/

/-- The reset state meets the invariant, whatever inputs are to come: the bounds of 10_state.md R34, RND <= 16 (R26; that
RND is 0 at reset is the model's choice, log 8), and the canonical form of both buffers (the model's choice, log 18). -/
def Obligations.ResetMeetsTheInvariant : Prop := ∀ inputs : List Input, (State.reset.setPort inputs).Inv

/-- Every step keeps the invariant of 10_state.md R34, RND <= 16 (R26; what RND holds between commands is the model's
choice, log 8) and the canonical form of both buffers (the model's choice, log 18). -/
def Obligations.StepKeepsTheInvariant : Prop := ∀ s t : State, s.Inv → step s = .next t → t.Inv

/-- 10_state.md R34: the invariants that hold in every reachable state. -/
def Obligations.ReachableStatesMeetTheInvariants : Prop :=
  ∀ s : State, Reachable s →
    s.status.extractLsb' 4 4 = 0#4 ∧ s.status ∈ [0x00#8, 0x01#8, 0x02#8, 0x03#8, 0x04#8, 0x08#8] ∧
    s.ilen.toNat ≤ Config.maxLen ∧ s.olen.toNat ≤ Config.maxLen + 8 ∧ ∀ i : Fin 16, s.k[i].toNat < 2 ^ 48

/-- 20_memory.md R48: from a state that meets the invariant the engine never leaves its buffers: no step faults. -/
def Obligations.EngineNeverLeavesItsBuffers : Prop := ∀ (s : State) (f : Fault), s.Inv → step s ≠ .fault f

/-- 45_host_access.md R197, R200: from a state that meets the invariant a host operation completes exactly when it is well
formed: no command and no well-formed access is ever refused. That a WR of a value wider than its register, a read-only
register and CMD among them, is ill formed and never completes is the model's choice (log 11). -/
def Obligations.WellFormedOperationsComplete : Prop :=
  ∀ (s : State) (o : HostOp) (rest : List Input), s.Inv → s.port = .op o :: rest →
    (o.wf = true ↔ ∃ t, step s = .next t)

/-- 10_state.md R12: KEY is written by WR KEY and by GENKEY and by nothing else but reset. -/
def Obligations.OnlyWrKeyAndGenkeyWriteKey : Prop :=
  ∀ s t : State, step s = .next t → t.key ≠ s.key →
    ∃ rest, (∃ v, s.port = .op (.wr 0x02 v) :: rest ∧ t.key = v) ∨
      (s.port = .op (.wr 0x00 0x01#64) :: rest ∧ t.key = Config.rng s.draws ++ 0x00#8) ∨
      (s.port = .reset :: rest ∧ t.key = 0#64)

/-- 10_state.md R13, R18, R20: DIN, ILEN and IBUF are written by the host alone (or reset): any step that changes one is
WR DIN, WR ILEN, WRB or reset. -/
def Obligations.OnlyTheHostWritesCommandInputs : Prop :=
  ∀ s t : State, step s = .next t →
    (t.din ≠ s.din → ∃ rest, (∃ v, s.port = .op (.wr 0x03 v) :: rest) ∨ s.port = .reset :: rest) ∧
    (t.ilen ≠ s.ilen → ∃ rest, (∃ v, s.port = .op (.wr 0x05 v) :: rest) ∨ s.port = .reset :: rest) ∧
    (t.ibuf ≠ s.ibuf → ∃ rest, (∃ a b, s.port = .op (.wrb a b) :: rest) ∨ s.port = .reset :: rest)

/-- 10_state.md R14, R19, R21: DOUT changes only by ENCB, DECB or reset; OLEN and OBUF only by ENCS, DECS or reset. -/
def Obligations.OnlyCommandsWriteResults : Prop :=
  ∀ s t : State, step s = .next t →
    (t.dout ≠ s.dout → ∃ rest, s.port = .op (.wr 0x00 0x04#64) :: rest ∨ s.port = .op (.wr 0x00 0x05#64) :: rest ∨
      s.port = .reset :: rest) ∧
    (t.olen ≠ s.olen ∨ t.obuf ≠ s.obuf → ∃ rest, s.port = .op (.wr 0x00 0x06#64) :: rest ∨
      s.port = .op (.wr 0x00 0x07#64) :: rest ∨ s.port = .reset :: rest)

/-- 20_memory.md R49: a byte the host writes is the byte the host's next read of the same offset returns. -/
def Obligations.ReadAfterWriteReturnsTheByte : Prop :=
  ∀ (s : State) (rest : List Input) (a : Nat) (b : Byte), a < Config.maxLen →
    s.port = .op (.wrb a b) :: .op (.rdb .ibuf a) :: rest →
    ∃ t u, step s = .next t ∧ step t = .next u ∧ u.replies = .byte .ibuf a b :: s.replies ∧ u.port = rest
end

