-- ==== Sys2Proof/Laws/State.lean ====
section
/-! SUPPORT. What each update of the state does to each field: one lemma per field per update, so that no later proof
unfolds a record update. -/

namespace Sys2Proof.Machine

variable (s : State)

/-! ### setKey -/

@[simp] theorem State.setKey_key (v : Key) : (s.setKey v).key = v := rfl
@[simp] theorem State.setKey_din (v : Key) : (s.setKey v).din = s.din := rfl
@[simp] theorem State.setKey_dout (v : Key) : (s.setKey v).dout = s.dout := rfl
@[simp] theorem State.setKey_k (v : Key) : (s.setKey v).k = s.k := rfl
@[simp] theorem State.setKey_status (v : Key) : (s.setKey v).status = s.status := rfl
@[simp] theorem State.setKey_ilen (v : Key) : (s.setKey v).ilen = s.ilen := rfl
@[simp] theorem State.setKey_olen (v : Key) : (s.setKey v).olen = s.olen := rfl
@[simp] theorem State.setKey_ibuf (v : Key) : (s.setKey v).ibuf = s.ibuf := rfl
@[simp] theorem State.setKey_obuf (v : Key) : (s.setKey v).obuf = s.obuf := rfl
@[simp] theorem State.setKey_c (v : Key) : (s.setKey v).c = s.c := rfl
@[simp] theorem State.setKey_d (v : Key) : (s.setKey v).d = s.d := rfl
@[simp] theorem State.setKey_l (v : Key) : (s.setKey v).l = s.l := rfl
@[simp] theorem State.setKey_r (v : Key) : (s.setKey v).r = s.r := rfl
@[simp] theorem State.setKey_rnd (v : Key) : (s.setKey v).rnd = s.rnd := rfl
@[simp] theorem State.setKey_blk (v : Key) : (s.setKey v).blk = s.blk := rfl
@[simp] theorem State.setKey_port (v : Key) : (s.setKey v).port = s.port := rfl
@[simp] theorem State.setKey_replies (v : Key) : (s.setKey v).replies = s.replies := rfl
@[simp] theorem State.setKey_draws (v : Key) : (s.setKey v).draws = s.draws := rfl
@[simp] theorem State.setKey_epoch (v : Key) : (s.setKey v).epoch = s.epoch := rfl

/-! ### setDin -/

@[simp] theorem State.setDin_key (v : Block) : (s.setDin v).key = s.key := rfl
@[simp] theorem State.setDin_din (v : Block) : (s.setDin v).din = v := rfl
@[simp] theorem State.setDin_dout (v : Block) : (s.setDin v).dout = s.dout := rfl
@[simp] theorem State.setDin_k (v : Block) : (s.setDin v).k = s.k := rfl
@[simp] theorem State.setDin_status (v : Block) : (s.setDin v).status = s.status := rfl
@[simp] theorem State.setDin_ilen (v : Block) : (s.setDin v).ilen = s.ilen := rfl
@[simp] theorem State.setDin_olen (v : Block) : (s.setDin v).olen = s.olen := rfl
@[simp] theorem State.setDin_ibuf (v : Block) : (s.setDin v).ibuf = s.ibuf := rfl
@[simp] theorem State.setDin_obuf (v : Block) : (s.setDin v).obuf = s.obuf := rfl
@[simp] theorem State.setDin_c (v : Block) : (s.setDin v).c = s.c := rfl
@[simp] theorem State.setDin_d (v : Block) : (s.setDin v).d = s.d := rfl
@[simp] theorem State.setDin_l (v : Block) : (s.setDin v).l = s.l := rfl
@[simp] theorem State.setDin_r (v : Block) : (s.setDin v).r = s.r := rfl
@[simp] theorem State.setDin_rnd (v : Block) : (s.setDin v).rnd = s.rnd := rfl
@[simp] theorem State.setDin_blk (v : Block) : (s.setDin v).blk = s.blk := rfl
@[simp] theorem State.setDin_port (v : Block) : (s.setDin v).port = s.port := rfl
@[simp] theorem State.setDin_replies (v : Block) : (s.setDin v).replies = s.replies := rfl
@[simp] theorem State.setDin_draws (v : Block) : (s.setDin v).draws = s.draws := rfl
@[simp] theorem State.setDin_epoch (v : Block) : (s.setDin v).epoch = s.epoch := rfl

/-! ### setDout -/

@[simp] theorem State.setDout_key (v : Block) : (s.setDout v).key = s.key := rfl
@[simp] theorem State.setDout_din (v : Block) : (s.setDout v).din = s.din := rfl
@[simp] theorem State.setDout_dout (v : Block) : (s.setDout v).dout = v := rfl
@[simp] theorem State.setDout_k (v : Block) : (s.setDout v).k = s.k := rfl
@[simp] theorem State.setDout_status (v : Block) : (s.setDout v).status = s.status := rfl
@[simp] theorem State.setDout_ilen (v : Block) : (s.setDout v).ilen = s.ilen := rfl
@[simp] theorem State.setDout_olen (v : Block) : (s.setDout v).olen = s.olen := rfl
@[simp] theorem State.setDout_ibuf (v : Block) : (s.setDout v).ibuf = s.ibuf := rfl
@[simp] theorem State.setDout_obuf (v : Block) : (s.setDout v).obuf = s.obuf := rfl
@[simp] theorem State.setDout_c (v : Block) : (s.setDout v).c = s.c := rfl
@[simp] theorem State.setDout_d (v : Block) : (s.setDout v).d = s.d := rfl
@[simp] theorem State.setDout_l (v : Block) : (s.setDout v).l = s.l := rfl
@[simp] theorem State.setDout_r (v : Block) : (s.setDout v).r = s.r := rfl
@[simp] theorem State.setDout_rnd (v : Block) : (s.setDout v).rnd = s.rnd := rfl
@[simp] theorem State.setDout_blk (v : Block) : (s.setDout v).blk = s.blk := rfl
@[simp] theorem State.setDout_port (v : Block) : (s.setDout v).port = s.port := rfl
@[simp] theorem State.setDout_replies (v : Block) : (s.setDout v).replies = s.replies := rfl
@[simp] theorem State.setDout_draws (v : Block) : (s.setDout v).draws = s.draws := rfl
@[simp] theorem State.setDout_epoch (v : Block) : (s.setDout v).epoch = s.epoch := rfl

/-! ### setSubkeys -/

@[simp] theorem State.setSubkeys_key (v : Vector Subkey 16) : (s.setSubkeys v).key = s.key := rfl
@[simp] theorem State.setSubkeys_din (v : Vector Subkey 16) : (s.setSubkeys v).din = s.din := rfl
@[simp] theorem State.setSubkeys_dout (v : Vector Subkey 16) : (s.setSubkeys v).dout = s.dout := rfl
@[simp] theorem State.setSubkeys_k (v : Vector Subkey 16) : (s.setSubkeys v).k = v := rfl
@[simp] theorem State.setSubkeys_status (v : Vector Subkey 16) : (s.setSubkeys v).status = s.status := rfl
@[simp] theorem State.setSubkeys_ilen (v : Vector Subkey 16) : (s.setSubkeys v).ilen = s.ilen := rfl
@[simp] theorem State.setSubkeys_olen (v : Vector Subkey 16) : (s.setSubkeys v).olen = s.olen := rfl
@[simp] theorem State.setSubkeys_ibuf (v : Vector Subkey 16) : (s.setSubkeys v).ibuf = s.ibuf := rfl
@[simp] theorem State.setSubkeys_obuf (v : Vector Subkey 16) : (s.setSubkeys v).obuf = s.obuf := rfl
@[simp] theorem State.setSubkeys_c (v : Vector Subkey 16) : (s.setSubkeys v).c = s.c := rfl
@[simp] theorem State.setSubkeys_d (v : Vector Subkey 16) : (s.setSubkeys v).d = s.d := rfl
@[simp] theorem State.setSubkeys_l (v : Vector Subkey 16) : (s.setSubkeys v).l = s.l := rfl
@[simp] theorem State.setSubkeys_r (v : Vector Subkey 16) : (s.setSubkeys v).r = s.r := rfl
@[simp] theorem State.setSubkeys_rnd (v : Vector Subkey 16) : (s.setSubkeys v).rnd = s.rnd := rfl
@[simp] theorem State.setSubkeys_blk (v : Vector Subkey 16) : (s.setSubkeys v).blk = s.blk := rfl
@[simp] theorem State.setSubkeys_port (v : Vector Subkey 16) : (s.setSubkeys v).port = s.port := rfl
@[simp] theorem State.setSubkeys_replies (v : Vector Subkey 16) : (s.setSubkeys v).replies = s.replies := rfl
@[simp] theorem State.setSubkeys_draws (v : Vector Subkey 16) : (s.setSubkeys v).draws = s.draws := rfl
@[simp] theorem State.setSubkeys_epoch (v : Vector Subkey 16) : (s.setSubkeys v).epoch = s.epoch := rfl

/-! ### setStatus -/

@[simp] theorem State.setStatus_key (v : BitVec 8) : (s.setStatus v).key = s.key := rfl
@[simp] theorem State.setStatus_din (v : BitVec 8) : (s.setStatus v).din = s.din := rfl
@[simp] theorem State.setStatus_dout (v : BitVec 8) : (s.setStatus v).dout = s.dout := rfl
@[simp] theorem State.setStatus_k (v : BitVec 8) : (s.setStatus v).k = s.k := rfl
@[simp] theorem State.setStatus_status (v : BitVec 8) : (s.setStatus v).status = v := rfl
@[simp] theorem State.setStatus_ilen (v : BitVec 8) : (s.setStatus v).ilen = s.ilen := rfl
@[simp] theorem State.setStatus_olen (v : BitVec 8) : (s.setStatus v).olen = s.olen := rfl
@[simp] theorem State.setStatus_ibuf (v : BitVec 8) : (s.setStatus v).ibuf = s.ibuf := rfl
@[simp] theorem State.setStatus_obuf (v : BitVec 8) : (s.setStatus v).obuf = s.obuf := rfl
@[simp] theorem State.setStatus_c (v : BitVec 8) : (s.setStatus v).c = s.c := rfl
@[simp] theorem State.setStatus_d (v : BitVec 8) : (s.setStatus v).d = s.d := rfl
@[simp] theorem State.setStatus_l (v : BitVec 8) : (s.setStatus v).l = s.l := rfl
@[simp] theorem State.setStatus_r (v : BitVec 8) : (s.setStatus v).r = s.r := rfl
@[simp] theorem State.setStatus_rnd (v : BitVec 8) : (s.setStatus v).rnd = s.rnd := rfl
@[simp] theorem State.setStatus_blk (v : BitVec 8) : (s.setStatus v).blk = s.blk := rfl
@[simp] theorem State.setStatus_port (v : BitVec 8) : (s.setStatus v).port = s.port := rfl
@[simp] theorem State.setStatus_replies (v : BitVec 8) : (s.setStatus v).replies = s.replies := rfl
@[simp] theorem State.setStatus_draws (v : BitVec 8) : (s.setStatus v).draws = s.draws := rfl
@[simp] theorem State.setStatus_epoch (v : BitVec 8) : (s.setStatus v).epoch = s.epoch := rfl

/-! ### setIlen -/

@[simp] theorem State.setIlen_key (v : Len) : (s.setIlen v).key = s.key := rfl
@[simp] theorem State.setIlen_din (v : Len) : (s.setIlen v).din = s.din := rfl
@[simp] theorem State.setIlen_dout (v : Len) : (s.setIlen v).dout = s.dout := rfl
@[simp] theorem State.setIlen_k (v : Len) : (s.setIlen v).k = s.k := rfl
@[simp] theorem State.setIlen_status (v : Len) : (s.setIlen v).status = s.status := rfl
@[simp] theorem State.setIlen_ilen (v : Len) : (s.setIlen v).ilen = v := rfl
@[simp] theorem State.setIlen_olen (v : Len) : (s.setIlen v).olen = s.olen := rfl
@[simp] theorem State.setIlen_ibuf (v : Len) : (s.setIlen v).ibuf = s.ibuf := rfl
@[simp] theorem State.setIlen_obuf (v : Len) : (s.setIlen v).obuf = s.obuf := rfl
@[simp] theorem State.setIlen_c (v : Len) : (s.setIlen v).c = s.c := rfl
@[simp] theorem State.setIlen_d (v : Len) : (s.setIlen v).d = s.d := rfl
@[simp] theorem State.setIlen_l (v : Len) : (s.setIlen v).l = s.l := rfl
@[simp] theorem State.setIlen_r (v : Len) : (s.setIlen v).r = s.r := rfl
@[simp] theorem State.setIlen_rnd (v : Len) : (s.setIlen v).rnd = s.rnd := rfl
@[simp] theorem State.setIlen_blk (v : Len) : (s.setIlen v).blk = s.blk := rfl
@[simp] theorem State.setIlen_port (v : Len) : (s.setIlen v).port = s.port := rfl
@[simp] theorem State.setIlen_replies (v : Len) : (s.setIlen v).replies = s.replies := rfl
@[simp] theorem State.setIlen_draws (v : Len) : (s.setIlen v).draws = s.draws := rfl
@[simp] theorem State.setIlen_epoch (v : Len) : (s.setIlen v).epoch = s.epoch := rfl

/-! ### setOlen -/

@[simp] theorem State.setOlen_key (v : Len) : (s.setOlen v).key = s.key := rfl
@[simp] theorem State.setOlen_din (v : Len) : (s.setOlen v).din = s.din := rfl
@[simp] theorem State.setOlen_dout (v : Len) : (s.setOlen v).dout = s.dout := rfl
@[simp] theorem State.setOlen_k (v : Len) : (s.setOlen v).k = s.k := rfl
@[simp] theorem State.setOlen_status (v : Len) : (s.setOlen v).status = s.status := rfl
@[simp] theorem State.setOlen_ilen (v : Len) : (s.setOlen v).ilen = s.ilen := rfl
@[simp] theorem State.setOlen_olen (v : Len) : (s.setOlen v).olen = v := rfl
@[simp] theorem State.setOlen_ibuf (v : Len) : (s.setOlen v).ibuf = s.ibuf := rfl
@[simp] theorem State.setOlen_obuf (v : Len) : (s.setOlen v).obuf = s.obuf := rfl
@[simp] theorem State.setOlen_c (v : Len) : (s.setOlen v).c = s.c := rfl
@[simp] theorem State.setOlen_d (v : Len) : (s.setOlen v).d = s.d := rfl
@[simp] theorem State.setOlen_l (v : Len) : (s.setOlen v).l = s.l := rfl
@[simp] theorem State.setOlen_r (v : Len) : (s.setOlen v).r = s.r := rfl
@[simp] theorem State.setOlen_rnd (v : Len) : (s.setOlen v).rnd = s.rnd := rfl
@[simp] theorem State.setOlen_blk (v : Len) : (s.setOlen v).blk = s.blk := rfl
@[simp] theorem State.setOlen_port (v : Len) : (s.setOlen v).port = s.port := rfl
@[simp] theorem State.setOlen_replies (v : Len) : (s.setOlen v).replies = s.replies := rfl
@[simp] theorem State.setOlen_draws (v : Len) : (s.setOlen v).draws = s.draws := rfl
@[simp] theorem State.setOlen_epoch (v : Len) : (s.setOlen v).epoch = s.epoch := rfl

/-! ### setIbuf -/

@[simp] theorem State.setIbuf_key (m : Memory) : (s.setIbuf m).key = s.key := rfl
@[simp] theorem State.setIbuf_din (m : Memory) : (s.setIbuf m).din = s.din := rfl
@[simp] theorem State.setIbuf_dout (m : Memory) : (s.setIbuf m).dout = s.dout := rfl
@[simp] theorem State.setIbuf_k (m : Memory) : (s.setIbuf m).k = s.k := rfl
@[simp] theorem State.setIbuf_status (m : Memory) : (s.setIbuf m).status = s.status := rfl
@[simp] theorem State.setIbuf_ilen (m : Memory) : (s.setIbuf m).ilen = s.ilen := rfl
@[simp] theorem State.setIbuf_olen (m : Memory) : (s.setIbuf m).olen = s.olen := rfl
@[simp] theorem State.setIbuf_ibuf (m : Memory) : (s.setIbuf m).ibuf = m := rfl
@[simp] theorem State.setIbuf_obuf (m : Memory) : (s.setIbuf m).obuf = s.obuf := rfl
@[simp] theorem State.setIbuf_c (m : Memory) : (s.setIbuf m).c = s.c := rfl
@[simp] theorem State.setIbuf_d (m : Memory) : (s.setIbuf m).d = s.d := rfl
@[simp] theorem State.setIbuf_l (m : Memory) : (s.setIbuf m).l = s.l := rfl
@[simp] theorem State.setIbuf_r (m : Memory) : (s.setIbuf m).r = s.r := rfl
@[simp] theorem State.setIbuf_rnd (m : Memory) : (s.setIbuf m).rnd = s.rnd := rfl
@[simp] theorem State.setIbuf_blk (m : Memory) : (s.setIbuf m).blk = s.blk := rfl
@[simp] theorem State.setIbuf_port (m : Memory) : (s.setIbuf m).port = s.port := rfl
@[simp] theorem State.setIbuf_replies (m : Memory) : (s.setIbuf m).replies = s.replies := rfl
@[simp] theorem State.setIbuf_draws (m : Memory) : (s.setIbuf m).draws = s.draws := rfl
@[simp] theorem State.setIbuf_epoch (m : Memory) : (s.setIbuf m).epoch = s.epoch := rfl

/-! ### setObuf -/

@[simp] theorem State.setObuf_key (m : Memory) : (s.setObuf m).key = s.key := rfl
@[simp] theorem State.setObuf_din (m : Memory) : (s.setObuf m).din = s.din := rfl
@[simp] theorem State.setObuf_dout (m : Memory) : (s.setObuf m).dout = s.dout := rfl
@[simp] theorem State.setObuf_k (m : Memory) : (s.setObuf m).k = s.k := rfl
@[simp] theorem State.setObuf_status (m : Memory) : (s.setObuf m).status = s.status := rfl
@[simp] theorem State.setObuf_ilen (m : Memory) : (s.setObuf m).ilen = s.ilen := rfl
@[simp] theorem State.setObuf_olen (m : Memory) : (s.setObuf m).olen = s.olen := rfl
@[simp] theorem State.setObuf_ibuf (m : Memory) : (s.setObuf m).ibuf = s.ibuf := rfl
@[simp] theorem State.setObuf_obuf (m : Memory) : (s.setObuf m).obuf = m := rfl
@[simp] theorem State.setObuf_c (m : Memory) : (s.setObuf m).c = s.c := rfl
@[simp] theorem State.setObuf_d (m : Memory) : (s.setObuf m).d = s.d := rfl
@[simp] theorem State.setObuf_l (m : Memory) : (s.setObuf m).l = s.l := rfl
@[simp] theorem State.setObuf_r (m : Memory) : (s.setObuf m).r = s.r := rfl
@[simp] theorem State.setObuf_rnd (m : Memory) : (s.setObuf m).rnd = s.rnd := rfl
@[simp] theorem State.setObuf_blk (m : Memory) : (s.setObuf m).blk = s.blk := rfl
@[simp] theorem State.setObuf_port (m : Memory) : (s.setObuf m).port = s.port := rfl
@[simp] theorem State.setObuf_replies (m : Memory) : (s.setObuf m).replies = s.replies := rfl
@[simp] theorem State.setObuf_draws (m : Memory) : (s.setObuf m).draws = s.draws := rfl
@[simp] theorem State.setObuf_epoch (m : Memory) : (s.setObuf m).epoch = s.epoch := rfl

/-! ### setKeyHalves -/

@[simp] theorem State.setKeyHalves_key (vc vd : KeyHalf) : (s.setKeyHalves vc vd).key = s.key := rfl
@[simp] theorem State.setKeyHalves_din (vc vd : KeyHalf) : (s.setKeyHalves vc vd).din = s.din := rfl
@[simp] theorem State.setKeyHalves_dout (vc vd : KeyHalf) : (s.setKeyHalves vc vd).dout = s.dout := rfl
@[simp] theorem State.setKeyHalves_k (vc vd : KeyHalf) : (s.setKeyHalves vc vd).k = s.k := rfl
@[simp] theorem State.setKeyHalves_status (vc vd : KeyHalf) : (s.setKeyHalves vc vd).status = s.status := rfl
@[simp] theorem State.setKeyHalves_ilen (vc vd : KeyHalf) : (s.setKeyHalves vc vd).ilen = s.ilen := rfl
@[simp] theorem State.setKeyHalves_olen (vc vd : KeyHalf) : (s.setKeyHalves vc vd).olen = s.olen := rfl
@[simp] theorem State.setKeyHalves_ibuf (vc vd : KeyHalf) : (s.setKeyHalves vc vd).ibuf = s.ibuf := rfl
@[simp] theorem State.setKeyHalves_obuf (vc vd : KeyHalf) : (s.setKeyHalves vc vd).obuf = s.obuf := rfl
@[simp] theorem State.setKeyHalves_c (vc vd : KeyHalf) : (s.setKeyHalves vc vd).c = vc := rfl
@[simp] theorem State.setKeyHalves_d (vc vd : KeyHalf) : (s.setKeyHalves vc vd).d = vd := rfl
@[simp] theorem State.setKeyHalves_l (vc vd : KeyHalf) : (s.setKeyHalves vc vd).l = s.l := rfl
@[simp] theorem State.setKeyHalves_r (vc vd : KeyHalf) : (s.setKeyHalves vc vd).r = s.r := rfl
@[simp] theorem State.setKeyHalves_rnd (vc vd : KeyHalf) : (s.setKeyHalves vc vd).rnd = s.rnd := rfl
@[simp] theorem State.setKeyHalves_blk (vc vd : KeyHalf) : (s.setKeyHalves vc vd).blk = s.blk := rfl
@[simp] theorem State.setKeyHalves_port (vc vd : KeyHalf) : (s.setKeyHalves vc vd).port = s.port := rfl
@[simp] theorem State.setKeyHalves_replies (vc vd : KeyHalf) : (s.setKeyHalves vc vd).replies = s.replies := rfl
@[simp] theorem State.setKeyHalves_draws (vc vd : KeyHalf) : (s.setKeyHalves vc vd).draws = s.draws := rfl
@[simp] theorem State.setKeyHalves_epoch (vc vd : KeyHalf) : (s.setKeyHalves vc vd).epoch = s.epoch := rfl

/-! ### setHalves -/

@[simp] theorem State.setHalves_key (vl vr : Half) : (s.setHalves vl vr).key = s.key := rfl
@[simp] theorem State.setHalves_din (vl vr : Half) : (s.setHalves vl vr).din = s.din := rfl
@[simp] theorem State.setHalves_dout (vl vr : Half) : (s.setHalves vl vr).dout = s.dout := rfl
@[simp] theorem State.setHalves_k (vl vr : Half) : (s.setHalves vl vr).k = s.k := rfl
@[simp] theorem State.setHalves_status (vl vr : Half) : (s.setHalves vl vr).status = s.status := rfl
@[simp] theorem State.setHalves_ilen (vl vr : Half) : (s.setHalves vl vr).ilen = s.ilen := rfl
@[simp] theorem State.setHalves_olen (vl vr : Half) : (s.setHalves vl vr).olen = s.olen := rfl
@[simp] theorem State.setHalves_ibuf (vl vr : Half) : (s.setHalves vl vr).ibuf = s.ibuf := rfl
@[simp] theorem State.setHalves_obuf (vl vr : Half) : (s.setHalves vl vr).obuf = s.obuf := rfl
@[simp] theorem State.setHalves_c (vl vr : Half) : (s.setHalves vl vr).c = s.c := rfl
@[simp] theorem State.setHalves_d (vl vr : Half) : (s.setHalves vl vr).d = s.d := rfl
@[simp] theorem State.setHalves_l (vl vr : Half) : (s.setHalves vl vr).l = vl := rfl
@[simp] theorem State.setHalves_r (vl vr : Half) : (s.setHalves vl vr).r = vr := rfl
@[simp] theorem State.setHalves_rnd (vl vr : Half) : (s.setHalves vl vr).rnd = s.rnd := rfl
@[simp] theorem State.setHalves_blk (vl vr : Half) : (s.setHalves vl vr).blk = s.blk := rfl
@[simp] theorem State.setHalves_port (vl vr : Half) : (s.setHalves vl vr).port = s.port := rfl
@[simp] theorem State.setHalves_replies (vl vr : Half) : (s.setHalves vl vr).replies = s.replies := rfl
@[simp] theorem State.setHalves_draws (vl vr : Half) : (s.setHalves vl vr).draws = s.draws := rfl
@[simp] theorem State.setHalves_epoch (vl vr : Half) : (s.setHalves vl vr).epoch = s.epoch := rfl

/-! ### setRnd -/

@[simp] theorem State.setRnd_key (v : BitVec 5) : (s.setRnd v).key = s.key := rfl
@[simp] theorem State.setRnd_din (v : BitVec 5) : (s.setRnd v).din = s.din := rfl
@[simp] theorem State.setRnd_dout (v : BitVec 5) : (s.setRnd v).dout = s.dout := rfl
@[simp] theorem State.setRnd_k (v : BitVec 5) : (s.setRnd v).k = s.k := rfl
@[simp] theorem State.setRnd_status (v : BitVec 5) : (s.setRnd v).status = s.status := rfl
@[simp] theorem State.setRnd_ilen (v : BitVec 5) : (s.setRnd v).ilen = s.ilen := rfl
@[simp] theorem State.setRnd_olen (v : BitVec 5) : (s.setRnd v).olen = s.olen := rfl
@[simp] theorem State.setRnd_ibuf (v : BitVec 5) : (s.setRnd v).ibuf = s.ibuf := rfl
@[simp] theorem State.setRnd_obuf (v : BitVec 5) : (s.setRnd v).obuf = s.obuf := rfl
@[simp] theorem State.setRnd_c (v : BitVec 5) : (s.setRnd v).c = s.c := rfl
@[simp] theorem State.setRnd_d (v : BitVec 5) : (s.setRnd v).d = s.d := rfl
@[simp] theorem State.setRnd_l (v : BitVec 5) : (s.setRnd v).l = s.l := rfl
@[simp] theorem State.setRnd_r (v : BitVec 5) : (s.setRnd v).r = s.r := rfl
@[simp] theorem State.setRnd_rnd (v : BitVec 5) : (s.setRnd v).rnd = v := rfl
@[simp] theorem State.setRnd_blk (v : BitVec 5) : (s.setRnd v).blk = s.blk := rfl
@[simp] theorem State.setRnd_port (v : BitVec 5) : (s.setRnd v).port = s.port := rfl
@[simp] theorem State.setRnd_replies (v : BitVec 5) : (s.setRnd v).replies = s.replies := rfl
@[simp] theorem State.setRnd_draws (v : BitVec 5) : (s.setRnd v).draws = s.draws := rfl
@[simp] theorem State.setRnd_epoch (v : BitVec 5) : (s.setRnd v).epoch = s.epoch := rfl

/-! ### setBlk -/

@[simp] theorem State.setBlk_key (v : BitVec 32) : (s.setBlk v).key = s.key := rfl
@[simp] theorem State.setBlk_din (v : BitVec 32) : (s.setBlk v).din = s.din := rfl
@[simp] theorem State.setBlk_dout (v : BitVec 32) : (s.setBlk v).dout = s.dout := rfl
@[simp] theorem State.setBlk_k (v : BitVec 32) : (s.setBlk v).k = s.k := rfl
@[simp] theorem State.setBlk_status (v : BitVec 32) : (s.setBlk v).status = s.status := rfl
@[simp] theorem State.setBlk_ilen (v : BitVec 32) : (s.setBlk v).ilen = s.ilen := rfl
@[simp] theorem State.setBlk_olen (v : BitVec 32) : (s.setBlk v).olen = s.olen := rfl
@[simp] theorem State.setBlk_ibuf (v : BitVec 32) : (s.setBlk v).ibuf = s.ibuf := rfl
@[simp] theorem State.setBlk_obuf (v : BitVec 32) : (s.setBlk v).obuf = s.obuf := rfl
@[simp] theorem State.setBlk_c (v : BitVec 32) : (s.setBlk v).c = s.c := rfl
@[simp] theorem State.setBlk_d (v : BitVec 32) : (s.setBlk v).d = s.d := rfl
@[simp] theorem State.setBlk_l (v : BitVec 32) : (s.setBlk v).l = s.l := rfl
@[simp] theorem State.setBlk_r (v : BitVec 32) : (s.setBlk v).r = s.r := rfl
@[simp] theorem State.setBlk_rnd (v : BitVec 32) : (s.setBlk v).rnd = s.rnd := rfl
@[simp] theorem State.setBlk_blk (v : BitVec 32) : (s.setBlk v).blk = v := rfl
@[simp] theorem State.setBlk_port (v : BitVec 32) : (s.setBlk v).port = s.port := rfl
@[simp] theorem State.setBlk_replies (v : BitVec 32) : (s.setBlk v).replies = s.replies := rfl
@[simp] theorem State.setBlk_draws (v : BitVec 32) : (s.setBlk v).draws = s.draws := rfl
@[simp] theorem State.setBlk_epoch (v : BitVec 32) : (s.setBlk v).epoch = s.epoch := rfl

/-! ### setPort -/

@[simp] theorem State.setPort_key (p : List Input) : (s.setPort p).key = s.key := rfl
@[simp] theorem State.setPort_din (p : List Input) : (s.setPort p).din = s.din := rfl
@[simp] theorem State.setPort_dout (p : List Input) : (s.setPort p).dout = s.dout := rfl
@[simp] theorem State.setPort_k (p : List Input) : (s.setPort p).k = s.k := rfl
@[simp] theorem State.setPort_status (p : List Input) : (s.setPort p).status = s.status := rfl
@[simp] theorem State.setPort_ilen (p : List Input) : (s.setPort p).ilen = s.ilen := rfl
@[simp] theorem State.setPort_olen (p : List Input) : (s.setPort p).olen = s.olen := rfl
@[simp] theorem State.setPort_ibuf (p : List Input) : (s.setPort p).ibuf = s.ibuf := rfl
@[simp] theorem State.setPort_obuf (p : List Input) : (s.setPort p).obuf = s.obuf := rfl
@[simp] theorem State.setPort_c (p : List Input) : (s.setPort p).c = s.c := rfl
@[simp] theorem State.setPort_d (p : List Input) : (s.setPort p).d = s.d := rfl
@[simp] theorem State.setPort_l (p : List Input) : (s.setPort p).l = s.l := rfl
@[simp] theorem State.setPort_r (p : List Input) : (s.setPort p).r = s.r := rfl
@[simp] theorem State.setPort_rnd (p : List Input) : (s.setPort p).rnd = s.rnd := rfl
@[simp] theorem State.setPort_blk (p : List Input) : (s.setPort p).blk = s.blk := rfl
@[simp] theorem State.setPort_port (p : List Input) : (s.setPort p).port = p := rfl
@[simp] theorem State.setPort_replies (p : List Input) : (s.setPort p).replies = s.replies := rfl
@[simp] theorem State.setPort_draws (p : List Input) : (s.setPort p).draws = s.draws := rfl
@[simp] theorem State.setPort_epoch (p : List Input) : (s.setPort p).epoch = s.epoch := rfl

/-! ### addReply -/

@[simp] theorem State.addReply_key (a : Reply) : (s.addReply a).key = s.key := rfl
@[simp] theorem State.addReply_din (a : Reply) : (s.addReply a).din = s.din := rfl
@[simp] theorem State.addReply_dout (a : Reply) : (s.addReply a).dout = s.dout := rfl
@[simp] theorem State.addReply_k (a : Reply) : (s.addReply a).k = s.k := rfl
@[simp] theorem State.addReply_status (a : Reply) : (s.addReply a).status = s.status := rfl
@[simp] theorem State.addReply_ilen (a : Reply) : (s.addReply a).ilen = s.ilen := rfl
@[simp] theorem State.addReply_olen (a : Reply) : (s.addReply a).olen = s.olen := rfl
@[simp] theorem State.addReply_ibuf (a : Reply) : (s.addReply a).ibuf = s.ibuf := rfl
@[simp] theorem State.addReply_obuf (a : Reply) : (s.addReply a).obuf = s.obuf := rfl
@[simp] theorem State.addReply_c (a : Reply) : (s.addReply a).c = s.c := rfl
@[simp] theorem State.addReply_d (a : Reply) : (s.addReply a).d = s.d := rfl
@[simp] theorem State.addReply_l (a : Reply) : (s.addReply a).l = s.l := rfl
@[simp] theorem State.addReply_r (a : Reply) : (s.addReply a).r = s.r := rfl
@[simp] theorem State.addReply_rnd (a : Reply) : (s.addReply a).rnd = s.rnd := rfl
@[simp] theorem State.addReply_blk (a : Reply) : (s.addReply a).blk = s.blk := rfl
@[simp] theorem State.addReply_port (a : Reply) : (s.addReply a).port = s.port := rfl
@[simp] theorem State.addReply_replies (a : Reply) : (s.addReply a).replies = a :: s.replies := rfl
@[simp] theorem State.addReply_draws (a : Reply) : (s.addReply a).draws = s.draws := rfl
@[simp] theorem State.addReply_epoch (a : Reply) : (s.addReply a).epoch = s.epoch := rfl

/-! ### countDraw -/

@[simp] theorem State.countDraw_key : (s.countDraw).key = s.key := rfl
@[simp] theorem State.countDraw_din : (s.countDraw).din = s.din := rfl
@[simp] theorem State.countDraw_dout : (s.countDraw).dout = s.dout := rfl
@[simp] theorem State.countDraw_k : (s.countDraw).k = s.k := rfl
@[simp] theorem State.countDraw_status : (s.countDraw).status = s.status := rfl
@[simp] theorem State.countDraw_ilen : (s.countDraw).ilen = s.ilen := rfl
@[simp] theorem State.countDraw_olen : (s.countDraw).olen = s.olen := rfl
@[simp] theorem State.countDraw_ibuf : (s.countDraw).ibuf = s.ibuf := rfl
@[simp] theorem State.countDraw_obuf : (s.countDraw).obuf = s.obuf := rfl
@[simp] theorem State.countDraw_c : (s.countDraw).c = s.c := rfl
@[simp] theorem State.countDraw_d : (s.countDraw).d = s.d := rfl
@[simp] theorem State.countDraw_l : (s.countDraw).l = s.l := rfl
@[simp] theorem State.countDraw_r : (s.countDraw).r = s.r := rfl
@[simp] theorem State.countDraw_rnd : (s.countDraw).rnd = s.rnd := rfl
@[simp] theorem State.countDraw_blk : (s.countDraw).blk = s.blk := rfl
@[simp] theorem State.countDraw_port : (s.countDraw).port = s.port := rfl
@[simp] theorem State.countDraw_replies : (s.countDraw).replies = s.replies := rfl
@[simp] theorem State.countDraw_draws : (s.countDraw).draws = s.draws + 1 := rfl
@[simp] theorem State.countDraw_epoch : (s.countDraw).epoch = s.epoch := rfl

end Sys2Proof.Machine
end

