-- ==== Sys2Proof/Laws/Memory.lean ====
section
/-! SUPPORT. The written bytes of a buffer: a read after a write, the canonical form, block-wide accesses
(spec/20_memory.md R41 to R43), and the range of MAXLEN (spec/00_scope.md R6). -/

namespace Sys2Proof

/-- Every value of MAXLEN lies in the range the spec gives it (00_scope.md R6). -/
theorem Config.maxLen_range : 8 ≤ Config.maxLen ∧ Config.maxLen ≤ 2 ^ 32 - 9 := by
  unfold Config.maxLen; omega

namespace Machine

/-! ### Reading after writing one byte -/

/-- The byte written at `a` is found at `a`. -/
@[simp] theorem Memory.find_write_same (m : Memory) (a : Nat) (b : Byte) : Memory.find (Memory.write m a b) a = some b := by
  induction m with
  | nil => simp [Memory.write, Memory.find]
  | cons cell rest ih =>
    obtain ⟨x, v⟩ := cell
    by_cases h1 : a < x
    · simp [Memory.write, Memory.find, h1]
    · by_cases h2 : a = x
      · simp [Memory.write, Memory.find, h2]
      · simp [Memory.write, Memory.find, h1, h2, ih]

/-- A write at `a` leaves every other offset as it was. -/
theorem Memory.find_write_other (m : Memory) (a : Nat) (b : Byte) (x : Nat) (h : x ≠ a) :
    Memory.find (Memory.write m a b) x = Memory.find m x := by
  induction m with
  | nil => simp only [Memory.write, Memory.find, h, if_false]; split <;> rfl
  | cons cell rest ih =>
    obtain ⟨y, v⟩ := cell
    by_cases h1 : a < y
    · by_cases h3 : x < a
      · have : x ≠ y ∧ x < y := by omega
        simp [Memory.write, Memory.find, h1, h, h3, this]
      · simp [Memory.write, Memory.find, h1, h, h3]
    · by_cases h2 : a = y
      · subst h2; simp [Memory.write, Memory.find, h]
      · simp [Memory.write, Memory.find, h1, h2, ih]

/-- What one byte write does, at every offset. -/
theorem Memory.find_write (m : Memory) (a : Nat) (b : Byte) (x : Nat) :
    Memory.find (Memory.write m a b) x = if x = a then some b else Memory.find m x := by
  by_cases h : x = a
  · simp [h]
  · simp [h, Memory.find_write_other m a b x h]

/-! ### The canonical form -/

/-- A write inside the range keeps the cells sorted within it. -/
theorem Memory.sortedWithin_write (m : Memory) (lo hi a : Nat) (b : Byte) (h : Memory.sortedWithin m lo hi = true)
    (hlo : lo ≤ a) (hhi : a < hi) : Memory.sortedWithin (Memory.write m a b) lo hi = true := by
  induction m generalizing lo with
  | nil => simp [Memory.write, Memory.sortedWithin, hlo, hhi]
  | cons cell rest ih =>
    obtain ⟨x, v⟩ := cell
    simp only [Memory.sortedWithin, Bool.and_eq_true, decide_eq_true_eq] at h
    obtain ⟨⟨h1, h2⟩, h3⟩ := h
    unfold Memory.write
    split
    · simp only [Memory.sortedWithin, Bool.and_eq_true, decide_eq_true_eq]
      exact ⟨⟨hlo, hhi⟩, ⟨⟨by omega, h2⟩, h3⟩⟩
    · split
      · simp only [Memory.sortedWithin, Bool.and_eq_true, decide_eq_true_eq]
        exact ⟨⟨h1, h2⟩, h3⟩
      · simp only [Memory.sortedWithin, Bool.and_eq_true, decide_eq_true_eq]
        exact ⟨⟨h1, h2⟩, ih (x + 1) h3 (by omega)⟩

/-- Nothing written is in canonical form. -/
@[simp] theorem Memory.wf_nil (size : Nat) : Memory.wf size [] = true := rfl

/-- A byte write inside the buffer keeps the canonical form. -/
theorem Memory.wf_write (size : Nat) (m : Memory) (a : Nat) (b : Byte) (h : Memory.wf size m = true) (ha : a < size) :
    Memory.wf size (Memory.write m a b) = true :=
  Memory.sortedWithin_write m 0 size a b h (Nat.zero_le a) ha

/-- A block write inside the buffer keeps the canonical form. -/
theorem Memory.wf_writeBlock (size : Nat) (m : Memory) (a : Nat) (v : Block) (h : Memory.wf size m = true)
    (ha : a + 8 ≤ size) : Memory.wf size (Memory.writeBlock m a v) = true := by
  simp only [Memory.writeBlock, List.foldl]
  iterate 8 refine Memory.wf_write size _ _ _ ?_ (by omega)
  exact h

/-- An offset below the lower bound of a sorted list is not listed. -/
theorem Memory.find_below (m : Memory) (lo hi a : Nat) (h : Memory.sortedWithin m lo hi = true) (ha : a < lo) :
    Memory.find m a = none := by
  cases m with
  | nil => rfl
  | cons cell rest =>
    obtain ⟨x, v⟩ := cell
    simp only [Memory.sortedWithin, Bool.and_eq_true, decide_eq_true_eq] at h
    have : a ≠ x ∧ a < x := by omega
    simp [Memory.find, this]

/-- Equal memories are equal data: two canonical lists that hold the same byte at every offset are the same list. -/
theorem Memory.ext_of_sortedWithin (m m' : Memory) (lo hi : Nat) (h : Memory.sortedWithin m lo hi = true)
    (h' : Memory.sortedWithin m' lo hi = true) (heq : ∀ a, Memory.find m a = Memory.find m' a) : m = m' := by
  induction m generalizing m' lo with
  | nil =>
    cases m' with
    | nil => rfl
    | cons cell rest => obtain ⟨x, v⟩ := cell; simpa [Memory.find] using heq x
  | cons cell rest ih =>
    obtain ⟨x, v⟩ := cell
    cases m' with
    | nil => simpa [Memory.find] using heq x
    | cons cell' rest' =>
      obtain ⟨y, w⟩ := cell'
      simp only [Memory.sortedWithin, Bool.and_eq_true, decide_eq_true_eq] at h h'
      have hx := heq x
      have hy := heq y
      have hxy : x = y := by
        rcases Nat.lt_trichotomy x y with hlt | he | hgt
        · have : x ≠ y := by omega
          simp [Memory.find, this, hlt] at hx
        · exact he
        · have : y ≠ x := by omega
          simp [Memory.find, this, hgt] at hy
      subst hxy
      have hvw : v = w := by simpa [Memory.find] using hx
      subst hvw
      refine congrArg _ (ih rest' (x + 1) h.2 h'.2 fun a => ?_)
      by_cases hax : a < x + 1
      · rw [Memory.find_below rest (x + 1) hi a h.2 hax, Memory.find_below rest' (x + 1) hi a h'.2 hax]
      · have h1 : a ≠ x ∧ ¬ a < x := by omega
        simpa [Memory.find, h1] using heq a

/-! ### Block-wide accesses -/

/-- What a block write does, at every offset: byte j of the block at offset a + j, nothing elsewhere (20_memory.md R43). -/
theorem Memory.find_writeBlock (m : Memory) (a : Nat) (v : Block) (x : Nat) :
    Memory.find (Memory.writeBlock m a v) x =
      if a ≤ x ∧ x < a + 8 then some (blockByte v (x - a)) else Memory.find m x := by
  simp only [Memory.writeBlock, List.foldl, Memory.find_write]
  by_cases h : a ≤ x ∧ x < a + 8
  · obtain ⟨j, hj, rfl⟩ : ∃ j, j < 8 ∧ x = a + j := ⟨x - a, by omega, by omega⟩
    interval_cases j <;> simp
  · rw [if_neg h]
    iterate 8 rw [if_neg (by omega)]

/-- Byte j of the block that eight bytes of a sequence form is byte j of the sequence (20_memory.md R42). -/
theorem blockByte_blockAt (f : Nat → Byte) (a j : Nat) (h : j < 8) : blockByte (blockAt f a) j = f (a + j) := by
  apply BitVec.eq_of_getLsbD_eq
  intro i hi
  interval_cases j <;> simp only [blockByte, blockAt, BitVec.getLsbD_extractLsb', BitVec.getLsbD_append] <;>
    interval_cases i <;> simp

/-- A block is the eight bytes it represents, first byte most significant (20_memory.md R42). -/
theorem blockAt_blockByte (v : Block) (a : Nat) : blockAt (fun x => blockByte v (x - a)) a = v := by
  apply BitVec.eq_of_getLsbD_eq
  intro i hi
  simp only [blockAt, blockByte, BitVec.getLsbD_append, BitVec.getLsbD_extractLsb']
  interval_cases i <;> simp

/-- Two sequences that agree on eight bytes form the same block there. -/
theorem blockAt_congr (f g : Nat → Byte) (a : Nat) (h : ∀ j, j < 8 → f (a + j) = g (a + j)) : blockAt f a = blockAt g a := by
  have h0 : f a = g a := by simpa using h 0 (by omega)
  simp [blockAt, h0, h 1, h 2, h 3, h 4, h 5, h 6, h 7]

/-! ### Reading a byte of the state -/

/-- Equal IBUF and reset number: IBUF reads the same. -/
theorem readByte_ibuf_congr (s t : State) (hm : t.ibuf = s.ibuf) (he : t.epoch = s.epoch) (a : Nat) :
    readByte t .ibuf a = readByte s .ibuf a := by simp [readByte, hm, he]

/-- Equal OBUF and reset number: OBUF reads the same. -/
theorem readByte_obuf_congr (s t : State) (hm : t.obuf = s.obuf) (he : t.epoch = s.epoch) (a : Nat) :
    readByte t .obuf a = readByte s .obuf a := by simp [readByte, hm, he]

/-- What WRB does to every byte of IBUF (45_host_access.md R195). -/
theorem readByte_writeIbuf (s : State) (a : Nat) (b : Byte) (x : Nat) :
    readByte (writeIbuf s a b) .ibuf x = if x = a then b else readByte s .ibuf x := by
  simp only [readByte, writeIbuf, State.setIbuf_ibuf, State.setIbuf_epoch, Memory.find_write]
  split <;> rfl

/-- What MemWrite does to every byte of OBUF (20_memory.md R43). -/
theorem readByte_memWrite (s : State) (a : Nat) (v : Block) (x : Nat) :
    readByte (memWrite s a v) .obuf x = if a ≤ x ∧ x < a + 8 then blockByte v (x - a) else readByte s .obuf x := by
  simp only [readByte, memWrite, State.setObuf_obuf, State.setObuf_epoch, Memory.find_writeBlock]
  split <;> rfl

/-- MemRead after MemWrite at the same offset gives the block written (20_memory.md R42, R43). -/
theorem memRead_memWrite (s : State) (a : Nat) (v : Block) : memRead (memWrite s a v) .obuf a = v := by
  rw [memRead, blockAt_congr _ (fun x => blockByte v (x - a)), blockAt_blockByte]
  intro j hj
  rw [readByte_memWrite, if_pos (by omega)]

end Machine

end Sys2Proof
end

