-- ==== Sys2Proof/Laws/Commands.lean ====
section
/-! SUPPORT. What each shared operation of the commands does: deriving the subkeys, the round registers, success, error, the
block loop and the unpadding checks. Later proofs cite these and unfold none of the operations. -/

namespace Sys2Proof.Machine

/-- Everything the derivation writes (10_state.md R15, R24, R26); every other field is as before. -/
theorem deriveSubkeys_eq (s : State) : deriveSubkeys s =
    { s with k := keySchedule s.key, c := (finalKeyHalves s.key).1, d := (finalKeyHalves s.key).2, rnd := 16#5 } := rfl

/-- Everything the rounds of one transform write (10_state.md R25, R26). -/
theorem setRoundRegs_eq (block : Block) (dir : Dir) (s : State) : setRoundRegs block dir s =
    { s with l := (finalHalves block s.key dir).1, r := (finalHalves block s.key dir).2, rnd := 16#5 } := rfl

/-- Everything KEYEXP writes (40_key_schedule.md R91); every other field is as before. -/
theorem execKeyexp_eq (s : State) : execKeyexp s = .next
    { s with k := keySchedule s.key, c := (finalKeyHalves s.key).1, d := (finalKeyHalves s.key).2, rnd := 16#5,
             status := 0x08#8 } := rfl

/-- Everything ENCB and DECB write (43_block_transform.md R147, R148); every other field is as before. -/
theorem blockCommand_eq (dir : Dir) (s : State) : blockCommand dir s =
    { s with k := keySchedule s.key, c := (finalKeyHalves s.key).1, d := (finalKeyHalves s.key).2,
             l := (finalHalves s.din s.key dir).1, r := (finalHalves s.din s.key dir).2, rnd := 16#5,
             dout := crypt s.din s.key dir, status := 0x08#8 } := rfl

/-- Success writes STATUS and nothing else (10_state.md R16). -/
theorem complete_eq (s : State) : complete s = { s with status := 0x08#8 } := rfl

/-- An error of DECS writes OLEN and STATUS and nothing else (60_exceptions.md R211). -/
theorem raiseError_decs (e : ErrKind) (s : State) :
    raiseError (some .decs) e s = { s with olen := 0#32, status := statusErr e } := rfl

/-- An error outside DECS writes STATUS and nothing else (60_exceptions.md R211, R215). -/
theorem raiseError_none (e : ErrKind) (s : State) : raiseError none e s = { s with status := statusErr e } := rfl

/-- The STATUS word of each error is its code (10_state.md R16, 60_exceptions.md R210). -/
theorem statusErr_values : statusErr .lengthInvalid = 0x01#8 ∧ statusErr .paddingInvalid = 0x02#8 ∧
    statusErr .decodeInvalid = 0x03#8 ∧ statusErr .illegalCommand = 0x04#8 := by decide

/-! ### The block loop -/

/-- The fields the block loop writes are OBUF, L, R, RND and BLK; every other field is as before (44_ecb_stream.md R163,
R167). -/
theorem streamLoop_frame (dir : Dir) (source : Nat → Block) (count : Nat) (s : State) :
    ∃ vl vr vn vb m, streamLoop dir source count s = { s with obuf := m, l := vl, r := vr, rnd := vn, blk := vb } := by
  induction count with
  | zero => exact ⟨s.l, s.r, s.rnd, 0#32, s.obuf, rfl⟩
  | succ n ih =>
    obtain ⟨vl, vr, vn, vb, m, h⟩ := ih
    simp only [streamLoop, h]
    exact ⟨_, _, _, _, _, rfl⟩

/-- The loop does not write KEY. -/
@[simp] theorem streamLoop_key (dir : Dir) (source : Nat → Block) (count : Nat) (s : State) :
    (streamLoop dir source count s).key = s.key := by
  obtain ⟨_, _, _, _, _, h⟩ := streamLoop_frame dir source count s; rw [h]

/-- The loop changes no reset number. -/
@[simp] theorem streamLoop_epoch (dir : Dir) (source : Nat → Block) (count : Nat) (s : State) :
    (streamLoop dir source count s).epoch = s.epoch := by
  obtain ⟨_, _, _, _, _, h⟩ := streamLoop_frame dir source count s; rw [h]

/-- The loop does not write IBUF. -/
@[simp] theorem streamLoop_ibuf (dir : Dir) (source : Nat → Block) (count : Nat) (s : State) :
    (streamLoop dir source count s).ibuf = s.ibuf := by
  obtain ⟨_, _, _, _, _, h⟩ := streamLoop_frame dir source count s; rw [h]

/-- BLK is the number of blocks done when the loop ends (44_ecb_stream.md R174). -/
@[simp] theorem streamLoop_blk (dir : Dir) (source : Nat → Block) (count : Nat) (s : State) :
    (streamLoop dir source count s).blk = BitVec.ofNat 32 count := by
  cases count <;> rfl

/-- Every byte of OBUF after the loop: byte a mod 8 of the transformed block a div 8 below 8 * count, as before from there
on (44_ecb_stream.md R163, R167; 20_memory.md R43). -/
theorem readByte_streamLoop (dir : Dir) (source : Nat → Block) (count : Nat) (s : State) (a : Nat) :
    readByte (streamLoop dir source count s) .obuf a =
      if a < 8 * count then blockByte (crypt (source (a / 8)) s.key dir) (a % 8) else readByte s .obuf a := by
  induction count with
  | zero => simp only [streamLoop, Nat.mul_zero, Nat.not_lt_zero, if_false]; exact readByte_obuf_congr _ _ rfl rfl a
  | succ n ih =>
    have hstep : readByte (streamLoop dir source (n + 1) s) .obuf a =
        if 8 * n ≤ a ∧ a < 8 * n + 8 then blockByte (crypt (source n) s.key dir) (a - 8 * n)
        else readByte (streamLoop dir source n s) .obuf a := by
      have := readByte_memWrite (setRoundRegs (source n) dir (streamLoop dir source n s)) (8 * n)
        (crypt (source n) (streamLoop dir source n s).key dir) a
      rw [streamLoop_key] at this
      refine Eq.trans ?_ (this.trans ?_)
      · exact (readByte_obuf_congr _ _ (by simp [streamLoop, streamBlock]) (by simp [streamLoop, streamBlock]) a)
      · congr 1
    rw [hstep, ih]
    by_cases h1 : 8 * n ≤ a ∧ a < 8 * n + 8
    · have h2 : a < 8 * (n + 1) := by omega
      have h3 : a / 8 = n := by omega
      have h4 : a - 8 * n = a % 8 := by omega
      simp [h1, h2, h3, h4]
    · by_cases h2 : a < 8 * n
      · have h3 : a < 8 * (n + 1) := by omega
        simp [h1, h2, h3]
      · have h3 : ¬ a < 8 * (n + 1) := by omega
        simp [h1, h2, h3]

/-- Block i of OBUF after the loop is the transform of block i of the source (44_ecb_stream.md R163, R167). -/
theorem memRead_streamLoop (dir : Dir) (source : Nat → Block) (count : Nat) (s : State) (i : Nat) (hi : i < count) :
    memRead (streamLoop dir source count s) .obuf (8 * i) = crypt (source i) s.key dir := by
  rw [memRead, blockAt_congr _ (fun x => blockByte (crypt (source i) s.key dir) (x - 8 * i)), blockAt_blockByte]
  intro j hj
  have h1 : 8 * i + j < 8 * count := by omega
  have h2 : (8 * i + j) / 8 = i := by omega
  have h3 : (8 * i + j) % 8 = 8 * i + j - 8 * i := by omega
  rw [readByte_streamLoop, if_pos h1, h2, h3]

/-- The loop keeps the canonical form of OBUF while its blocks lie in the buffer (20_memory.md R48). -/
theorem wf_streamLoop (dir : Dir) (source : Nat → Block) (count size : Nat) (s : State) (h : Memory.wf size s.obuf = true)
    (hc : 8 * count ≤ size) : Memory.wf size (streamLoop dir source count s).obuf = true := by
  induction count with
  | zero => exact h
  | succ n ih => exact Memory.wf_writeBlock size _ (8 * n) _ (ih (by omega)) (by omega)

/-- RND is 16 after a loop that started from 16 (43_block_transform.md R149). -/
theorem streamLoop_rnd (dir : Dir) (source : Nat → Block) (count : Nat) (s : State) (h : s.rnd = 16#5) :
    (streamLoop dir source count s).rnd = 16#5 := by
  cases count with
  | zero => exact h
  | succ n => rfl

/-- Everything ENCS writes inside the buffers (44_ecb_stream.md R163); every other field is as before. -/
theorem encryptStream_frame (s : State) : ∃ m vl vr vn vb, encryptStream s =
    { s with k := keySchedule s.key, c := (finalKeyHalves s.key).1, d := (finalKeyHalves s.key).2, rnd := vn, obuf := m,
             l := vl, r := vr, blk := vb, olen := BitVec.ofNat 32 (8 * paddedBlocks s.ilen.toNat), status := 0x08#8 } := by
  unfold encryptStream
  obtain ⟨vl, vr, vn, vb, m, h⟩ := streamLoop_frame .enc (fun i => blockAt (paddedStream s s.ilen.toNat) (8 * i))
    (paddedBlocks s.ilen.toNat) (deriveSubkeys s)
  simp only [h]
  exact ⟨m, vl, vr, vn, vb, rfl⟩

/-- Every byte of OBUF after ENCS (44_ecb_stream.md R163). -/
theorem readByte_encryptStream (s : State) (a : Nat) : readByte (encryptStream s) .obuf a =
    if a < 8 * paddedBlocks s.ilen.toNat then
      blockByte (crypt (blockAt (paddedStream s s.ilen.toNat) (8 * (a / 8))) s.key .enc) (a % 8)
    else readByte s .obuf a :=
  readByte_streamLoop .enc (fun i => blockAt (paddedStream s s.ilen.toNat) (8 * i)) (paddedBlocks s.ilen.toNat) (deriveSubkeys s) a

/-- Everything the block decryption of DECS writes (44_ecb_stream.md R167); every other field is as before. -/
theorem decryptBlocks_frame (s : State) : ∃ m vl vr vn vb, decryptBlocks s =
    { s with k := keySchedule s.key, c := (finalKeyHalves s.key).1, d := (finalKeyHalves s.key).2, rnd := vn, obuf := m,
             l := vl, r := vr, blk := vb } := by
  unfold decryptBlocks
  obtain ⟨vl, vr, vn, vb, m, h⟩ := streamLoop_frame .dec (fun i => memRead s .ibuf (8 * i)) (s.ilen.toNat / 8) (deriveSubkeys s)
  simp only [h]
  exact ⟨m, vl, vr, vn, vb, rfl⟩

/-- Every byte of OBUF after the block decryption of DECS (44_ecb_stream.md R167). -/
theorem readByte_decryptBlocks (s : State) (a : Nat) : readByte (decryptBlocks s) .obuf a =
    if a < 8 * (s.ilen.toNat / 8) then blockByte (crypt (memRead s .ibuf (8 * (a / 8))) s.key .dec) (a % 8)
    else readByte s .obuf a :=
  readByte_streamLoop .dec (fun i => memRead s .ibuf (8 * i)) (s.ilen.toNat / 8) (deriveSubkeys s) a

/-! ### The unpadding checks -/

/-- The checks and their outcome write OLEN and STATUS and nothing else (44_ecb_stream.md R168 to R172). -/
theorem unpad_frame (n : Nat) (s : State) : ∃ vo vs, unpad n s = { s with olen := vo, status := vs } := by
  unfold unpad
  simp only [raiseError_decs, complete_eq]
  split
  · exact ⟨_, _, rfl⟩
  · split
    · exact ⟨_, _, rfl⟩
    · split
      · exact ⟨_, _, rfl⟩
      · split <;> exact ⟨_, _, rfl⟩

/-- OLEN after the checks is at most the length checked. -/
theorem unpad_olen_le (n : Nat) (s : State) : (unpad n s).olen.toNat ≤ n := by
  unfold unpad
  simp only [raiseError_decs, complete_eq]
  split
  · simp
  · split
    · simp
    · split
      · simp
      · split
        · simp
        · simp only [State.setOlen_olen, BitVec.toNat_ofNat]
          exact le_trans (Nat.mod_le _ _) (Nat.sub_le _ _)

/-- STATUS after the checks is success, PaddingInvalid or DecodeInvalid (44_ecb_stream.md R165). -/
theorem unpad_status (n : Nat) (s : State) :
    (unpad n s).status = 0x08#8 ∨ (unpad n s).status = 0x02#8 ∨ (unpad n s).status = 0x03#8 := by
  unfold unpad
  simp only [raiseError_decs, complete_eq]
  split
  · exact .inr (.inl rfl)
  · split
    · exact .inr (.inl rfl)
    · split
      · exact .inr (.inl rfl)
      · split
        · exact .inr (.inr rfl)
        · exact .inl rfl

/-! ### The stream commands -/

/-- Everything ENCS can do: inside the buffers it derives, encrypts every block of the padded stream, sets OLEN and reports
success; otherwise it faults (44_ecb_stream.md R163). -/
theorem execEncs_cases (s : State) :
    (s.ilen.toNat ≤ Config.maxLen ∧ execEncs s = .next (encryptStream s)) ∨
    (Config.maxLen < s.ilen.toNat ∧ execEncs s = .fault .engineOffset) := by
  unfold execEncs
  split
  · exact .inl ⟨‹_›, rfl⟩
  · exact .inr ⟨by omega, rfl⟩

/-- ENCS inside the buffers. -/
theorem execEncs_inside (s : State) (h : s.ilen.toNat ≤ Config.maxLen) : execEncs s = .next (encryptStream s) := if_pos h

/-- DECS of a length that is no multiple of 8 raises LengthInvalid at once. -/
theorem execDecs_misaligned (s : State) (h8 : s.ilen.toNat % 8 ≠ 0) :
    execDecs s = .next (raiseError (some .decs) .lengthInvalid s) := if_pos h8

/-- DECS past its length check and inside the buffers. -/
theorem execDecs_inside (s : State) (h8 : s.ilen.toNat % 8 = 0) (h : s.ilen.toNat ≤ Config.maxLen) :
    execDecs s = .next (unpad s.ilen.toNat (decryptBlocks s)) := (if_neg (by simp [h8])).trans (if_pos h)

/-- Everything DECS can do (44_ecb_stream.md R165, R166). -/
theorem execDecs_cases (s : State) :
    (s.ilen.toNat % 8 ≠ 0 ∧ execDecs s = .next { s with olen := 0#32, status := 0x01#8 }) ∨
    (s.ilen.toNat % 8 = 0 ∧ s.ilen.toNat ≤ Config.maxLen ∧ execDecs s = .next (unpad s.ilen.toNat (decryptBlocks s))) ∨
    (s.ilen.toNat % 8 = 0 ∧ Config.maxLen < s.ilen.toNat ∧ execDecs s = .fault .engineOffset) := by
  unfold execDecs
  split
  · exact .inl ⟨‹_›, rfl⟩
  · split
    · exact .inr (.inl ⟨by omega, ‹_›, rfl⟩)
    · exact .inr (.inr ⟨by omega, by omega, rfl⟩)

end Sys2Proof.Machine
end

