-- ==== Sys2Proof/Laws/PerInstr.lean ====
section
/-! SUPPORT. One statement about every command as syntax: it is well formed, and the word its fields ZERO, CLASS, SEL and
DIR form (spec/30_encoding.md R60) is the pattern of its own row of the opcode map (R61). -/

/-- The fields of the command form the pattern of its row in the opcode map. -/
def Sys2Proof.Laws.FieldsMatchRow.Statement (i : Sys2Proof.Instr) : Prop :=
  i.wf = true ∧ Sys2Proof.OpRow.mk i 0xFF#8 (Sys2Proof.encode i) ∈ Sys2Proof.opcodeMap

theorem Sys2Proof.Laws.FieldsMatchRow.genkey : Sys2Proof.Laws.FieldsMatchRow.Statement .genkey := by
  unfold Sys2Proof.Laws.FieldsMatchRow.Statement; decide

theorem Sys2Proof.Laws.FieldsMatchRow.keyexp : Sys2Proof.Laws.FieldsMatchRow.Statement .keyexp := by
  unfold Sys2Proof.Laws.FieldsMatchRow.Statement; decide

theorem Sys2Proof.Laws.FieldsMatchRow.encb : Sys2Proof.Laws.FieldsMatchRow.Statement .encb := by
  unfold Sys2Proof.Laws.FieldsMatchRow.Statement; decide

theorem Sys2Proof.Laws.FieldsMatchRow.decb : Sys2Proof.Laws.FieldsMatchRow.Statement .decb := by
  unfold Sys2Proof.Laws.FieldsMatchRow.Statement; decide

theorem Sys2Proof.Laws.FieldsMatchRow.encs : Sys2Proof.Laws.FieldsMatchRow.Statement .encs := by
  unfold Sys2Proof.Laws.FieldsMatchRow.Statement; decide

theorem Sys2Proof.Laws.FieldsMatchRow.decs : Sys2Proof.Laws.FieldsMatchRow.Statement .decs := by
  unfold Sys2Proof.Laws.FieldsMatchRow.Statement; decide

/-- No two rows of the opcode map match one word: decoding is unambiguous (30_encoding.md R64). -/
theorem Sys2Proof.Laws.opcodeMap_no_overlap :
    Sys2Proof.opcodeMap.Pairwise fun p q => ¬ (p.pattern &&& q.mask = q.pattern &&& p.mask) := by decide
end

