-- ==== Sys2Proof/Laws/Permutation.lean ====
section
/-! SUPPORT. The permutation primitive bit by bit (spec/41_permutation.md R100), the shape of the tables (R101, R102), and
the S-box lookup as bits. -/

namespace Sys2Proof.Machine

/-- The accumulated integer bit by bit: the bits of the list below, the accumulator above. -/
theorem testBit_foldl_bits (bits : List Bool) (acc i : Nat) :
    (bits.foldl (fun acc b => 2 * acc + b.toNat) acc).testBit i =
      if i < bits.length then bits.reverse.getD i false else acc.testBit (i - bits.length) := by
  induction bits generalizing acc with
  | nil => simp
  | cons b rest ih =>
    rw [List.foldl_cons, ih]
    by_cases h1 : i < rest.length
    · have h2 : i < rest.length + 1 := by omega
      simp [h1, h2, List.length_reverse]
    · simp only [h1, if_false, List.length_cons, List.reverse_cons]
      by_cases h2 : i = rest.length
      · subst h2
        rw [if_pos (by omega), Nat.sub_self, List.getD_append_right _ _ _ _ (by simp)]
        cases b <;> simp [Nat.testBit_zero]
      · obtain ⟨j, rfl⟩ : ∃ j, i = rest.length + 1 + j := ⟨i - rest.length - 1, by omega⟩
        rw [if_neg (by omega), show rest.length + 1 + j - rest.length = j + 1 by omega,
          show rest.length + 1 + j - (rest.length + 1) = j by omega, Nat.testBit_succ]
        congr 1
        cases b <;> simp; omega

/-- Integer bit i of the result is the input bit at the position that entry n - 1 - i of the table names
(41_permutation.md R102). -/
theorem permute_getLsbD {w : Nat} (n : Nat) (table : List Nat) (value : BitVec w) (hn : table.length = n) (i : Nat) (hi : i < n) :
    (permute n table value).getLsbD i = pos value (table.getD (n - 1 - i) 0) := by
  subst hn
  simp only [permute, natOfBits, BitVec.getLsbD_ofNat, hi, decide_true, Bool.true_and, testBit_foldl_bits, List.length_map,
    if_true]
  rw [List.getD_eq_getElem _ _ (by simpa using hi), List.getD_eq_getElem _ _ (by omega)]
  simp [List.getElem_reverse]

/-- Position m of the result, counted from the most-significant end, is position T[m] of the value
(41_permutation.md R100). -/
theorem pos_permute {w : Nat} (n : Nat) (table : List Nat) (value : BitVec w) (hn : table.length = n) (m : Nat) (h1 : 1 ≤ m)
    (hm : m ≤ n) : pos (permute n table value) m = pos value (table.getD (m - 1) 0) := by
  rw [pos, permute_getLsbD n table value hn (n - m) (by omega)]
  congr 2; omega

/-- The six tables have the lengths of 41_permutation.md R101, and ROT has sixteen entries. -/
theorem table_lengths : pc1Table.length = 56 ∧ pc2Table.length = 48 ∧ ipTable.length = 64 ∧ fpTable.length = 64 ∧
    eTable.length = 48 ∧ pTable.length = 32 ∧ rotTable.length = 16 := by decide

/-- Every entry of every table lies in 1..w for its input width w (41_permutation.md R102). -/
theorem table_entries_in_range : (∀ p ∈ pc1Table, 1 ≤ p ∧ p ≤ 64) ∧ (∀ p ∈ pc2Table, 1 ≤ p ∧ p ≤ 56) ∧
    (∀ p ∈ ipTable, 1 ≤ p ∧ p ≤ 64) ∧ (∀ p ∈ fpTable, 1 ≤ p ∧ p ≤ 64) ∧ (∀ p ∈ eTable, 1 ≤ p ∧ p ≤ 32) ∧
    (∀ p ∈ pTable, 1 ≤ p ∧ p ≤ 32) := by decide

/-- The entries the selections leave out, and the permutations: PC-1 (40_key_schedule.md R81) and PC-2 (R86) have distinct
entries and omit eight positions each; IP, IP^-1 and P use every position once (41_permutation.md R101). -/
theorem table_shapes : pc1Table.Nodup ∧ pc2Table.Nodup ∧ ipTable.Nodup ∧ fpTable.Nodup ∧ pTable.Nodup ∧
    (∀ p ∈ [8, 16, 24, 32, 40, 48, 56, 64], p ∉ pc1Table) ∧ (∀ p ∈ [9, 18, 22, 25, 35, 38, 43, 54], p ∉ pc2Table) ∧
    (∀ p ∈ pc2Table.take 24, p ≤ 28) ∧ (∀ p ∈ pc2Table.drop 24, 29 ≤ p) := by decide +kernel

/-- Every row of every S-box is a permutation of 0..15 (42_f_function.md R125). -/
theorem sbox_rows_permute : ∀ box ∈ [sbox1, sbox2, sbox3, sbox4, sbox5, sbox6, sbox7, sbox8],
    box.length = 4 ∧ ∀ row ∈ box, row.length = 16 ∧ row.Nodup ∧ ∀ x ∈ row, x < 16 := by decide +kernel

end Sys2Proof.Machine
end

