-- ==== Sys2Proof/Laws/Step.lean ====
section
/-! SUPPORT. What one step can do, and what each host operation can do (spec/45_host_access.md R190 to R197). -/

namespace Sys2Proof.Machine

/-- With no input pending the engine holds its state (60_exceptions.md R224). -/
theorem step_idle (s : State) (h : s.port = []) : step s = .next s := by simp [step, advance, h]

/-- With an input pending, that input is performed on the state without it. -/
theorem step_input (s : State) (i : Input) (rest : List Input) (h : s.port = i :: rest) :
    step s = performInput i (s.setPort rest) := by simp [step, advance, h]

/-- Everything a step that answers a next state can be: idle, reset, or one of the four host operations. -/
theorem step_cases (s t : State) (h : step s = .next t) :
    (s.port = [] ∧ t = s) ∨
    ∃ i rest, s.port = i :: rest ∧
      ((i = .reset ∧ t = assertReset (s.setPort rest)) ∨ ∃ o, i = .op o ∧ hostOp o (s.setPort rest) = .next t) := by
  cases hp : s.port with
  | nil => rw [step_idle s hp] at h; cases h; exact .inl ⟨rfl, rfl⟩
  | cons i rest =>
    rw [step_input s i rest hp] at h
    refine .inr ⟨i, rest, rfl, ?_⟩
    cases i with
    | reset => cases h; exact .inl ⟨rfl, rfl⟩
    | op o => exact .inr ⟨o, rfl, h⟩

/-- The number of a register selects it (10_state.md R27). -/
@[simp] theorem regOfNumber_regNumber (reg : Reg) : regOfNumber (regNumber reg) = some reg := by
  cases reg with
  | k i =>
    obtain ⟨i, hi⟩ := i
    interval_cases i <;> rfl
  | _ => rfl

/-- A number that selects a register is that register's number (10_state.md R27). -/
theorem regNumber_of_regOfNumber (num : Nat) (reg : Reg) (h : regOfNumber num = some reg) : num = regNumber reg := by
  unfold regOfNumber at h
  split at h
  all_goals try (cases h; rfl)
  split at h
  · cases h; simp [regNumber]; omega
  · cases h

/-- Everything RD can do (45_host_access.md R191, R197). -/
theorem hostRead_cases (num : Nat) (s : State) :
    (∃ reg, regOfNumber num = some reg ∧ hostRead num s = .next (s.addReply (.reg reg (readReg s reg)))) ∨
    (regOfNumber num = none ∧ hostRead num s = .refused (.reservedRegister num)) := by
  unfold hostRead
  cases h : regOfNumber num with
  | none => exact .inr ⟨rfl, rfl⟩
  | some reg => exact .inl ⟨reg, rfl, rfl⟩

/-- Everything WR can do to a next state: run a command, write KEY, DIN or ILEN, or nothing (45_host_access.md R192). -/
theorem hostWrite_next (num : Nat) (v : BitVec 64) (s t : State) (h : hostWrite num v s = .next t) :
    (regOfNumber num = some .cmd ∧ runCommand (v.setWidth 8) s = .next t) ∨
    (regOfNumber num = some .key ∧ t = s.setKey v) ∨ (regOfNumber num = some .din ∧ t = s.setDin v) ∨
    (regOfNumber num = some .ilen ∧ v.toNat ≤ Config.maxLen ∧ t = s.setIlen (v.setWidth 32)) ∨ t = s := by
  unfold hostWrite at h
  cases hn : regOfNumber num with
  | none => rw [hn] at h; cases h
  | some reg =>
    rw [hn] at h
    simp only at h
    split at h
    · cases reg with
      | cmd => exact .inl ⟨rfl, h⟩
      | key => cases h; exact .inr (.inl ⟨rfl, rfl⟩)
      | din => cases h; exact .inr (.inr (.inl ⟨rfl, rfl⟩))
      | ilen =>
        simp only [writeReg] at h
        split at h
        · cases h; exact .inr (.inr (.inr (.inl ⟨rfl, ‹_›, rfl⟩)))
        · cases h
      | status => cases h; exact .inr (.inr (.inr (.inr rfl)))
      | dout => cases h; exact .inr (.inr (.inr (.inr rfl)))
      | olen => cases h; exact .inr (.inr (.inr (.inr rfl)))
      | k i => cases h; exact .inr (.inr (.inr (.inr rfl)))
    · cases h

/-- Everything a write to CMD can do: run the command decoded, or report IllegalCommand (45_host_access.md R193). -/
theorem runCommand_cases (v : Byte) (s : State) :
    (∃ i, decode v = .command i ∧ runCommand v s = exec i s) ∨
    (decode v = .illegal v ∧ runCommand v s = .next { s with status := 0x04#8 }) := by
  unfold runCommand
  cases h : decode v with
  | command i => exact .inl ⟨i, rfl, rfl⟩
  | illegal w =>
    refine .inr ⟨?_, rfl⟩
    unfold decode at h
    split at h <;> cases h
    rfl

end Sys2Proof.Machine
end

