-- ==== Sys2Proof/Tests/Slice0.lean ====
section
/-! SUPPORT. The model's own tests: ill-formed operations that the checks refuse, decoding of words written out from
spec/30_encoding.md R60, one-step tests against the vectors of spec/94_derived_vectors.md and spec/95_test_vectors.md, and
for every statement with hypotheses a witness that meets them together. -/

namespace Sys2Proof.Tests

open Sys2Proof Sys2Proof.Machine

/-! ### Helpers -/

/-- The reset state with host operations to come. -/
def withOps (ops : List HostOp) : State := State.reset.setPort (inputsOf ops)

/-- The known vector's key (95_test_vectors.md section 1.1). -/
def knownKey : Key := 0x133457799BBCDFF1#64

/-- The known vector's block. -/
def knownBlock : Block := 0x0123456789ABCDEF#64

/-- A state with a key, a message in IBUF and its length in ILEN. -/
def withMessage (key : Key) (bytes : List Byte) : State :=
  { State.reset with
    key := key, ibuf := (List.range bytes.length).zip bytes, ilen := BitVec.ofNat 32 bytes.length }

/-- Whether an outcome is a next state that passes a check. -/
def nextAnd (o : Host.Outcome State Fault Refusal) (p : State → Bool) : Bool :=
  match o with
  | .next t => p t
  | .fault _ => false
  | .refused _ => false

/-- The reason of a refused outcome. -/
def refusal (o : Host.Outcome State Fault Refusal) : Option Refusal :=
  match o with
  | .next _ => none
  | .fault _ => none
  | .refused reason => some reason

/-- A ciphertext of "ABCDEFG" under the known key (94_derived_vectors.md section 5.2, row 1). -/
def goodCiphertext : List Byte := [0x9E#8, 0x0C#8, 0xB7#8, 0x19#8, 0x5E#8, 0x79#8, 0x98#8, 0x4A#8]

/-- A ciphertext whose decrypted last byte is 200 (94_derived_vectors.md section 5.2). -/
def badCiphertext : List Byte := [0x3B#8, 0xDF#8, 0x1C#8, 0x20#8, 0xBE#8, 0x89#8, 0x34#8, 0x03#8]

/-! ### Ill-formed operations (45_host_access.md R192, R197; no command is ill formed, 30_encoding.md R65) -/

/-- 0x07 and 0x20 are reserved numbers (10_state.md R27). -/
theorem test_wf_reserved : (HostOp.rd 0x07).wf = false ∧ (HostOp.wr 0x20 0#64).wf = false ∧ (HostOp.rd 0x1F).wf = true := by
  decide

/-- A value wider than the register: 9 bits for CMD, 33 for ILEN, 49 for K3 (10_state.md R27). -/
theorem test_wf_width : (HostOp.wr 0x00 0x100#64).wf = false ∧ (HostOp.wr 0x05 0x100000000#64).wf = false ∧
    (HostOp.wr 0x13 0x1000000000000#64).wf = false ∧ (HostOp.wr 0x00 0xFF#64).wf = true := by
  decide +kernel

/-- WR ILEN above MAXLEN (45_host_access.md R197). -/
theorem test_wf_ilen : (HostOp.wr 0x05 0xFFFFFFF8#64).wf = false ∧ (HostOp.wr 0x05 8#64).wf = true := by
  have := Config.maxLen_range
  constructor <;> simp [HostOp.wf, regOfNumber, fitsReg, regWidth] <;> omega

/-- Offsets outside IBUF and OBUF (20_memory.md R48). -/
theorem test_wf_offset : (HostOp.rdb .ibuf Config.maxLen).wf = false ∧ (HostOp.wrb Config.maxLen 0#8).wf = false ∧
    (HostOp.rdb .obuf (Config.maxLen + 8)).wf = false ∧ (HostOp.rdb .obuf (Config.maxLen + 7)).wf = true := by
  simp [HostOp.wf, bufSize]

/-! ### Decoding of words written bit by bit (30_encoding.md R60, R61) -/

theorem test_decode_genkey : decode 0b0000_00_0_1#8 = .command .genkey := by decide
theorem test_decode_keyexp : decode 0b0000_00_1_0#8 = .command .keyexp := by decide
theorem test_decode_encb : decode 0b0000_01_0_0#8 = .command .encb := by decide
theorem test_decode_decb : decode 0b0000_01_0_1#8 = .command .decb := by decide
theorem test_decode_encs : decode 0b0000_01_1_0#8 = .command .encs := by decide
theorem test_decode_decs : decode 0b0000_01_1_1#8 = .command .decs := by decide

/-- 0x00, 0x03 and 0x14 are no commands (30_encoding.md R62, R63). -/
theorem test_decode_illegal : decode 0x00#8 = .illegal 0x00#8 ∧ decode 0x03#8 = .illegal 0x03#8 ∧
    decode 0x14#8 = .illegal 0x14#8 ∧ decodeTableWord 8 0x0C = none := by decide

/-- The pseudo-instructions ENCB and MSG expand as 30_encoding.md R72 shows. -/
theorem test_pseudo : commandOp .encb = .wr 0x00 0x04#64 ∧
    msgOps [0x61#8, 0x62#8] = [.wrb 0 0x61#8, .wrb 1 0x62#8, .wr 0x05 2#64] := by decide

/-! ### The data path (41_permutation.md R103; 40_key_schedule.md R84; 42_f_function.md R138; 94 sections 2.2 and 4.2) -/

theorem test_ip : initialPermutation 0x0123456789ABCDEF#64 = 0xCC00CCFFF0AAF0AA#64 ∧
    initialPermutation 0xFF00000000000000#64 = 0x0101010101010101#64 := by decide +kernel

theorem test_fp : finalPermutation 0x8000000000000000#64 = 0x0000000000000040#64 ∧
    finalPermutation 0x0A4CD99543423234#64 = 0x85E813540F0AB405#64 := by decide +kernel

theorem test_pc1_pc2 : permute 56 pc1Table 0x133457799BBCDFF1#64 = 0xF0CCAAF556678F#56 ∧
    permute 48 pc2Table 0xE19955FAACCF1E#56 = 0x1B02EFFC7072#48 := by decide +kernel

theorem test_rotl28 : rotl28 0xF0CCAAF#28 1 = 0xE19955F#28 ∧ rotl28 0xC000000#28 2 = 0x0000003#28 := by decide

theorem test_f : fFunction 0x12345678#32 0xABCDEF012345#48 = 0x8BA99C9B#32 ∧
    fFunction 0xFFFFFFFF#32 0x000000000000#48 = 0x38DBF9CB#32 := by decide +kernel

/-! ### The commands -/

/-- 40_key_schedule.md R92: the draw 0x133457799BBCDF gives this key. -/
theorem test_genkey_key : keyOfDraw 0x133457799BBCDF#56 = 0x133457799BBCDF00#64 := by decide

/-- GENKEY reports success and leaves DIN (40_key_schedule.md R92). -/
theorem test_genkey : nextAnd (exec .genkey { State.reset with din := 5#64 }) (fun t => t.status == 0x08#8 && t.din == 5#64) = true := by
  decide

/-- KEYEXP of 0x0123456789ABCDEF: K[0] and K[15] (94_derived_vectors.md section 2.1). -/
theorem test_keyexp : nextAnd (exec .keyexp { State.reset with key := 0x0123456789ABCDEF#64 })
    (fun t => t.k[0] == 0x0B02679B49A5#48 && t.k[15] == 0xCA3D03B87032#48 && t.status == 0x08#8) = true := by decide +kernel

/-- The known vector, from the write to CMD (95_test_vectors.md section 1.1). -/
theorem test_encb : nextAnd (step { withOps [commandOp .encb] with key := knownKey, din := knownBlock })
    (fun t => t.dout == 0x85E813540F0AB405#64 && t.status == 0x08#8) = true := by decide +kernel

/-- A second ENCB (94_derived_vectors.md section 4.3). -/
theorem test_encb_second : nextAnd (exec .encb { State.reset with key := 0x8000000000000000#64 })
    (fun t => t.dout == 0x95A8D72813DAA94D#64) = true := by decide +kernel

/-- DECB of the known block: K stays in schedule order (94_derived_vectors.md section 4.3, 43_block_transform.md R148). -/
theorem test_decb : nextAnd (exec .decb { State.reset with key := knownKey, din := knownBlock })
    (fun t => t.dout == 0xEE0F7C12E0B09338#64 && t.k[0] == 0x1B02EFFC7072#48) = true := by decide +kernel

/-- ENCS of "abc" (94_derived_vectors.md section 5.1). -/
theorem test_encs_abc : nextAnd (exec .encs (withMessage knownKey [0x61#8, 0x62#8, 0x63#8]))
    (fun t => t.olen == 8#32 && memRead t .obuf 0 == 0xDAADBF9A3C471FC4#64 && t.status == 0x08#8) = true := by decide +kernel

/-- ENCS of "ABCDEFGH": an aligned message gets a block of padding (94_derived_vectors.md section 5.1). -/
theorem test_encs_aligned :
    nextAnd (exec .encs (withMessage knownKey [0x41#8, 0x42#8, 0x43#8, 0x44#8, 0x45#8, 0x46#8, 0x47#8, 0x48#8]))
    (fun t => t.olen == 16#32 && memRead t .obuf 0 == 0x0EE11BD2808EF0A1#64 && memRead t .obuf 8 == 0xFDF2E174492922F8#64) =
    true := by decide +kernel

/-- DECS of seven bytes: LengthInvalid, K and OBUF untouched (94_derived_vectors.md section 5.2; program P3). -/
theorem test_decs_length : nextAnd (exec .decs { withMessage knownKey (goodCiphertext.take 7) with olen := 9#32 })
    (fun t => t.status == 0x01#8 && t.olen == 0#32 && t.k[0] == 0#48 && t.obuf == []) = true := by decide +kernel

/-- DECS of a block whose decrypted last byte is 200: PaddingInvalid, the decrypted bytes stay in OBUF
(94_derived_vectors.md section 5.2). -/
theorem test_decs_padding : nextAnd (exec .decs (withMessage knownKey badCiphertext))
    (fun t => t.status == 0x02#8 && t.olen == 0#32 && t.k[15] == 0xCB3D8B0E17F5#48 &&
      memRead t .obuf 0 == 0x41424344454647C8#64) = true := by decide +kernel

/-! ### Host operations (94_derived_vectors.md section 6, each from the reset state) -/

theorem test_rd_status : nextAnd (step (withOps [.rd 0x01])) (fun t => t.replies == [.reg .status 0#64]) = true := by decide

theorem test_rd_key : nextAnd (step { withOps [.rd 0x02] with key := knownKey })
    (fun t => t.replies == [.reg .key knownKey] && t.port == []) = true := by decide

theorem test_wr_k3_ignored : nextAnd (step (withOps [.wr 0x13 0x123456789ABC#64])) (fun t => t.k[3] == 0#48) = true := by
  decide +kernel

theorem test_wr_ilen : nextAnd (step (withOps [.wr 0x05 8#64])) (fun t => t.ilen == 8#32) = true := by decide +kernel

theorem test_wrb : nextAnd (step (withOps [.wrb 0 0xAB#8])) (fun t => readByte t .ibuf 0 == 0xAB#8) = true := by decide +kernel

theorem test_rdb : nextAnd (step { withOps [.rdb .ibuf 1] with ibuf := [(0, 1#8), (1, 2#8)] })
    (fun t => t.replies == [.byte .ibuf 1 2#8]) = true := by decide +kernel

theorem test_rd_reserved : refusal (step (withOps [.rd 0x07])) = some (.reservedRegister 0x07) := by decide

theorem test_illegal_word : nextAnd (step { withOps [.wr 0x00 0x14#64] with olen := 3#32 })
    (fun t => t.status == 0x04#8 && t.olen == 3#32) = true := by decide

theorem test_reset_input : nextAnd (step { State.reset with key := knownKey, ibuf := [(0, 1#8)], port := [.reset, .op (.rd 1)] })
    (fun t => t.key == 0#64 && t.ibuf == [] && t.port == [.op (.rd 1)]) = true := by decide

/-- A table word placed as the next operation is the first thing to run after reset. -/
theorem test_fetch_word : step (State.reset.withFetchWord 8 0x07) = exec .decs State.reset := rfl

/-! ### Witnesses: concrete states and operands that meet the hypotheses of the statements -/

theorem witness_DecodeOfEncodeIsTheInstruction : Instr.decs.wf = true := by decide

theorem witness_IllegalCommandWordOnlySetsStatus :
    0x14#8 ∉ [0x01#8, 0x02#8, 0x04#8, 0x05#8, 0x06#8, 0x07#8] ∧
    (withOps [.wr 0x00 0x14#64]).port = .op (.wr 0x00 ((0x14#8).setWidth 64)) :: [] := by decide

theorem witness_StepRunsTheDecodedCommand :
    (withOps [commandOp .encs]).port = .op (.wr 0x00 ((0x06#8).setWidth 64)) :: [] ∧ decode 0x06#8 = .command .encs ∧
    Instr.encs.wf = true := by decide

theorem witness_FetchWordRunsNext : decodeTableWord 8 0x01 = some .genkey := by decide

theorem witness_ReadRegisterReturnsItsValue :
    (0x1F, Reg.k 15, 0#64) ∈ registerReads (withOps [.rd 0x1F]) ∧ (withOps [.rd 0x1F]).port = .op (.rd 0x1F) :: [] := by
  decide +kernel

/-- KEY, DIN and CMD at the top of their ranges. -/
theorem witness_WriteRegisterByNumber :
    (withOps [.wr 0x02 (BitVec.allOnes 64)]).port = .op (.wr 0x02 (BitVec.allOnes 64)) :: [] ∧
    (withOps [.wr 0x03 (BitVec.allOnes 64)]).port = .op (.wr 0x03 (BitVec.allOnes 64)) :: [] ∧
    (withOps [.wr 0x00 0xFF#64]).port = .op (.wr 0x00 0xFF#64) :: [] ∧ (0xFF#64).toNat < 2 ^ 8 := by decide

/-- ILEN at MAXLEN and at MAXLEN + 1: the two clauses about ILEN, each at its boundary. -/
theorem witness_WriteRegisterByNumber_ilen :
    (∃ v : BitVec 64, v.toNat = Config.maxLen ∧ (withOps [.wr 0x05 v]).port = .op (.wr 0x05 v) :: [] ∧ v.toNat ≤ Config.maxLen) ∧
    (∃ v : BitVec 64, v.toNat = Config.maxLen + 1 ∧ (withOps [.wr 0x05 v]).port = .op (.wr 0x05 v) :: [] ∧
      Config.maxLen < v.toNat) := by
  have := Config.maxLen_range
  refine ⟨⟨BitVec.ofNat 64 Config.maxLen, ?_, rfl, ?_⟩, ⟨BitVec.ofNat 64 (Config.maxLen + 1), ?_, rfl, ?_⟩⟩ <;>
    (rw [BitVec.toNat_ofNat]; omega)

/-- The read-only registers at the top of their ranges: STATUS, DOUT, OLEN, K[0] and K[15]. -/
theorem witness_WriteRegisterByNumber_readOnly :
    (0xFF#64).toNat < 2 ^ 8 ∧ (0xFFFFFFFF#64).toNat < 2 ^ 32 ∧ (0x10 ≤ 0x10 ∧ 0x10 < 0x20) ∧ (0x10 ≤ 0x1F ∧ 0x1F < 0x20) ∧
    (0xFFFFFFFFFFFF#64).toNat < 2 ^ 48 ∧
    (withOps [.wr 0x01 0xFF#64]).port = .op (.wr 0x01 0xFF#64) :: [] ∧
    (withOps [.wr 0x04 0#64]).port = .op (.wr 0x04 0#64) :: [] ∧
    (withOps [.wr 0x06 0xFFFFFFFF#64]).port = .op (.wr 0x06 0xFFFFFFFF#64) :: [] ∧
    (withOps [.wr 0x10 0xFFFFFFFFFFFF#64]).port = .op (.wr 0x10 0xFFFFFFFFFFFF#64) :: [] ∧
    (withOps [.wr 0x1F 0xFFFFFFFFFFFF#64]).port = .op (.wr 0x1F 0xFFFFFFFFFFFF#64) :: [] := by decide

/-- Both clauses: a write to STATUS, DOUT, OLEN and K[15] at the top of their ranges, and a read of CMD. -/
theorem witness_ReadOnlyWritesAreIgnored :
    ((0xFF#64).toNat < 2 ^ regWidth .status ∧ (withOps [.wr 0x01 0xFF#64]).port = .op (.wr (regNumber .status) 0xFF#64) :: []) ∧
    ((BitVec.allOnes 64).toNat < 2 ^ regWidth .dout ∧
      (withOps [.wr 0x04 (BitVec.allOnes 64)]).port = .op (.wr (regNumber .dout) (BitVec.allOnes 64)) :: []) ∧
    ((0xFFFFFFFF#64).toNat < 2 ^ regWidth .olen ∧
      (withOps [.wr 0x06 0xFFFFFFFF#64]).port = .op (.wr (regNumber .olen) 0xFFFFFFFF#64) :: []) ∧
    ((0xFFFFFFFFFFFF#64).toNat < 2 ^ regWidth (.k 15) ∧
      (withOps [.wr 0x1F 0xFFFFFFFFFFFF#64]).port = .op (.wr (regNumber (.k 15)) 0xFFFFFFFFFFFF#64) :: []) ∧
    (withOps [.rd 0x00]).port = .op (.rd 0x00) :: [] := by decide

/-- Each clause at its boundary: numbers 0x07, 0x0F and 0x20, offsets MAXLEN and MAXLEN + 8, ILEN = MAXLEN + 1. -/
theorem witness_UndefinedAccessesAreRefused :
    (withOps [.rd 0x07]).port = .op (.rd 0x07) :: [] ∧ (withOps [.wr 0x0F 0#64]).port = .op (.wr 0x0F 0#64) :: [] ∧
    (withOps [.rd 0x20]).port = .op (.rd 0x20) :: [] ∧ (0x07 ≤ 0x07 ∧ 0x07 ≤ 0x0F) ∧ (0x07 ≤ 0x0F ∧ 0x0F ≤ 0x0F) ∧ 0x20 ≤ 0x20 ∧
    (withOps [.rdb .ibuf Config.maxLen]).port = .op (.rdb .ibuf Config.maxLen) :: [] ∧ Config.maxLen ≤ Config.maxLen ∧
    (withOps [.wrb Config.maxLen 1#8]).port = .op (.wrb Config.maxLen 1#8) :: [] ∧
    (withOps [.rdb .obuf (Config.maxLen + 8)]).port = .op (.rdb .obuf (Config.maxLen + 8)) :: [] ∧
    Config.maxLen + 8 ≤ Config.maxLen + 8 ∧
    ∃ v : BitVec 64, v.toNat = Config.maxLen + 1 ∧ Config.maxLen < v.toNat ∧
      (withOps [.wr 0x05 v]).port = .op (.wr 0x05 v) :: [] := by
  have := Config.maxLen_range
  refine ⟨rfl, rfl, rfl, by omega, by omega, by omega, rfl, le_refl _, rfl, rfl, le_refl _,
    BitVec.ofNat 64 (Config.maxLen + 1), ?_, ?_, rfl⟩ <;>
    (rw [BitVec.toNat_ofNat]; omega)

/-- Each clause at its boundary: the last offset of each buffer and the first beyond it. -/
theorem witness_ReadBufferByteReturnsIt :
    (withOps [.rdb .ibuf (Config.maxLen - 1)]).port = .op (.rdb .ibuf (Config.maxLen - 1)) :: [] ∧
    Config.maxLen - 1 < Config.maxLen ∧
    (withOps [.rdb .obuf (Config.maxLen + 7)]).port = .op (.rdb .obuf (Config.maxLen + 7)) :: [] ∧
    Config.maxLen + 7 < Config.maxLen + 8 ∧
    (withOps [.rdb .ibuf Config.maxLen]).port = .op (.rdb .ibuf Config.maxLen) :: [] ∧ Config.maxLen ≤ Config.maxLen ∧
    (withOps [.rdb .obuf (Config.maxLen + 8)]).port = .op (.rdb .obuf (Config.maxLen + 8)) :: [] ∧
    Config.maxLen + 8 ≤ Config.maxLen + 8 := by
  have := Config.maxLen_range
  exact ⟨rfl, by omega, rfl, by omega, rfl, le_refl _, rfl, le_refl _⟩

/-- Each clause at its boundary: the last offset of IBUF and the first beyond it. -/
theorem witness_WriteBufferByteWritesOneByte :
    (withOps [.wrb (Config.maxLen - 1) 7#8]).port = .op (.wrb (Config.maxLen - 1) 7#8) :: [] ∧
    Config.maxLen - 1 < Config.maxLen ∧
    (withOps [.wrb Config.maxLen 7#8]).port = .op (.wrb Config.maxLen 7#8) :: [] ∧ Config.maxLen ≤ Config.maxLen := by
  have := Config.maxLen_range
  exact ⟨rfl, by omega, rfl, le_refl _⟩

theorem witness_IdleEngineHoldsItsState : State.reset.port = [] := rfl

theorem witness_ResetInputGivesTheResetState :
    ({ State.reset with key := knownKey, port := [.reset] } : State).port = .reset :: [] := rfl

/-- The premise of PermuteIsLinear's last clause, met by the table E at w = 32. -/
theorem witness_PermuteIsLinear : ∀ p ∈ eTable, 1 ≤ p ∧ p ≤ 32 := by decide

theorem witness_FinalPermutationInvertsInitial : 1 ≤ 64 ∧ 64 ≤ 64 := by decide

/-- Both amounts of the rotation. -/
theorem witness_RotationWithinTwentyEightBits : ((1 : Nat) = 1 ∨ (1 : Nat) = 2) ∧ ((2 : Nat) = 1 ∨ (2 : Nat) = 2) := by decide

/-- The known key and the key that differs from it in all eight ignored bits (90_conflicts.md C1); both directions of the
equivalence have an instance. -/
theorem witness_ScheduleReadsExactlyTheUsedBits :
    sameUsedBits knownKey 0x123456789ABCDEF0#64 ∧ keySchedule knownKey = keySchedule 0x123456789ABCDEF0#64 := by
  constructor
  · unfold sameUsedBits; decide +kernel
  · decide +kernel

theorem witness_IgnoredKeyBitsChangeNoResult :
    Instr.decb ≠ .genkey ∧ sameUsedBits ({ State.reset with key := knownKey } : State).key 0x123456789ABCDEF0#64 ∧
    ∃ t, exec .decb { State.reset with key := knownKey } = .next t :=
  ⟨by decide, witness_ScheduleReadsExactlyTheUsedBits.1, _, rfl⟩

/-- A key with constant halves that are not both equal (94_derived_vectors.md section 2.1). -/
theorem witness_ConstantHalvesGiveEqualSubkeys :
    (initialKeyHalves 0x1F1F1F1F0E0E0E0E#64).1 ∈ [0#28, BitVec.allOnes 28] ∧
    (initialKeyHalves 0x1F1F1F1F0E0E0E0E#64).2 ∈ [0#28, BitVec.allOnes 28] ∧
    0x1F1F1F1F0E0E0E0E#64 ∈ [0x0101010101010101#64, 0xFEFEFEFEFEFEFEFE#64, 0x1F1F1F1F0E0E0E0E#64, 0xE0E0E0E0F1F1F1F1#64] := by
  decide +kernel

theorem witness_SubstitutionIsLaneWise : 0 < 8 ∧ 7 < 8 := by decide

theorem witness_SboxLookupsMatchTheRoms :
    (sbox8, 0xD12F8D486AF3B714AC9536EB500EC97272B14E1794CAE82D0F6CA9D0F335568B) ∈ sboxRoms := by simp [sboxRoms]

/-- Both premises: a key with sixteen equal subkeys, and two keys that differ in ignored bits only. -/
theorem witness_CryptIsABijection :
    (∀ i : Fin 16, (keySchedule 0x1F1F1F1F0E0E0E0E#64)[i] = (keySchedule 0x1F1F1F1F0E0E0E0E#64)[0]) ∧
    sameUsedBits knownKey 0x123456789ABCDEF0#64 := by
  constructor
  · decide +kernel
  · exact witness_ScheduleReadsExactlyTheUsedBits.1

/-- An empty message fits every MAXLEN. -/
theorem witness_EncsCompletes : State.reset.ilen.toNat ≤ Config.maxLen := Nat.zero_le _

/-- An aligned length, and equal blocks at positions 0 and 1 of two messages under one key: eight 08 bytes, twice. -/
theorem witness_EcbEqualBlocksGiveEqualBlocks :
    (withMessage knownKey (List.replicate 8 0x08#8)).key = (withMessage knownKey (List.replicate 8 0x08#8)).key ∧
    (∃ t, exec .encs (withMessage knownKey (List.replicate 8 0x08#8)) = .next t) ∧
    0 < (withMessage knownKey (List.replicate 8 0x08#8)).ilen.toNat / 8 + 1 ∧
    1 < (withMessage knownKey (List.replicate 8 0x08#8)).ilen.toNat / 8 + 1 ∧
    blockAt (paddedByte (withMessage knownKey (List.replicate 8 0x08#8))) (8 * 0) =
      blockAt (paddedByte (withMessage knownKey (List.replicate 8 0x08#8))) (8 * 1) := by
  refine ⟨rfl, ?_, by decide +kernel, by decide +kernel, by decide +kernel⟩
  have hr := Config.maxLen_range
  have h : (withMessage knownKey (List.replicate 8 0x08#8)).ilen.toNat = 8 := by decide +kernel
  exact ⟨_, execEncs_inside _ (by omega)⟩

theorem witness_PaddingAlwaysAdds : 16 % 8 = 0 := by decide

theorem witness_DecsRejectsBadLength : (withMessage knownKey (goodCiphertext.take 7)).ilen.toNat % 8 ≠ 0 := by decide +kernel

/-- The block the good ciphertext decrypts to (94_derived_vectors.md section 5.2). -/
theorem goodCiphertext_block (m : Nat) (h : m < 8) :
    decryptedByte (withMessage knownKey goodCiphertext) m = blockByte 0x4142434445464701#64 m := by
  have h1 : m / 8 = 0 := by omega
  have h2 : m % 8 = m := by omega
  have h3 : crypt (memRead (withMessage knownKey goodCiphertext) .ibuf (8 * 0)) knownKey .dec = 0x4142434445464701#64 := by
    decide +kernel
  rw [decryptedByte, h1, h2]
  exact congrArg (fun b => blockByte b m) h3

/-- The good ciphertext meets the premises of DecsCompletesOnGoodPadding. -/
theorem witness_DecsCompletesOnGoodPadding :
    (withMessage knownKey goodCiphertext).ilen.toNat % 8 = 0 ∧
    (withMessage knownKey goodCiphertext).ilen.toNat ≤ Config.maxLen ∧ goodPadding (withMessage knownKey goodCiphertext) := by
  have hr := Config.maxLen_range
  have hl : (withMessage knownKey goodCiphertext).ilen.toNat = 8 := by decide +kernel
  have hp : decryptedPad (withMessage knownKey goodCiphertext) = 1 := by
    rw [decryptedPad, hl, goodCiphertext_block 7 (by omega)]; decide
  refine ⟨by omega, by omega, by omega, by omega, by omega, fun m h1 h2 => ?_⟩
  have : m = 7 := by omega
  subst this
  rw [hp, goodCiphertext_block 7 (by omega)]; decide

/-- Each clause of bad padding: an empty input, a pad length of 0 (2E 99 F8 0F F9 95 3D 2E), one above 8 (3B DF 1C 20 BE 89
34 03) and a wrong pad byte (20 27 73 3E 4B D0 A9 DC), from 94_derived_vectors.md section 5.2. -/
theorem witness_DecsRejectsBadPadding :
    State.reset.ilen.toNat = 0 ∧ State.reset.ilen.toNat % 8 = 0 ∧ State.reset.ilen.toNat ≤ Config.maxLen ∧
    (withMessage knownKey badCiphertext).ilen.toNat % 8 = 0 ∧ (withMessage knownKey badCiphertext).ilen.toNat ≤ Config.maxLen ∧
    8 < decryptedPad (withMessage knownKey badCiphertext) ∧
    decryptedPad (withMessage knownKey [0x2E#8, 0x99#8, 0xF8#8, 0x0F#8, 0xF9#8, 0x95#8, 0x3D#8, 0x2E#8]) = 0 ∧
    (6 < 8 ∧ 8 - decryptedPad (withMessage knownKey [0x20#8, 0x27#8, 0x73#8, 0x3E#8, 0x4B#8, 0xD0#8, 0xA9#8, 0xDC#8]) ≤ 5 ∧
      (decryptedByte (withMessage knownKey [0x20#8, 0x27#8, 0x73#8, 0x3E#8, 0x4B#8, 0xD0#8, 0xA9#8, 0xDC#8]) 5).toNat ≠
        decryptedPad (withMessage knownKey [0x20#8, 0x27#8, 0x73#8, 0x3E#8, 0x4B#8, 0xD0#8, 0xA9#8, 0xDC#8])) := by
  have hr := Config.maxLen_range
  have hl : (withMessage knownKey badCiphertext).ilen.toNat = 8 := by decide +kernel
  exact ⟨by decide, by decide, Nat.zero_le _, by omega, by omega, by decide +kernel, by decide +kernel, by decide +kernel⟩

/-- "abc" encrypted, the output copied to IBUF and its length to ILEN. -/
theorem witness_StreamRoundTrip :
    ∃ s t u : State, exec .encs s = .next t ∧ u.key = s.key ∧ u.ilen = t.olen ∧ u.ilen.toNat ≤ Config.maxLen ∧
      ∀ a, a < t.olen.toNat → readByte u .ibuf a = readByte t .obuf a := by
  have hr := Config.maxLen_range
  let s := withMessage knownKey [0x61#8, 0x62#8, 0x63#8]
  have hs : s.ilen.toNat = 3 := by decide +kernel
  have ho : (encryptStream s).olen.toNat = 8 := by decide +kernel
  refine ⟨s, encryptStream s, { s with ibuf := (encryptStream s).obuf, ilen := (encryptStream s).olen },
    execEncs_inside s (by omega), rfl, rfl, ?_, ?_⟩
  · show (encryptStream s).olen.toNat ≤ Config.maxLen
    omega
  · rw [ho]; decide +kernel

/-- The premise of the rules over all commands: every command completes from reset. -/
theorem witness_CommandFrame : ∀ i : Instr, ∃ t, exec i State.reset = .next t := by
  intro i
  cases i with
  | encs => exact ⟨_, execEncs_inside _ (Nat.zero_le _)⟩
  | decs => exact ⟨_, execDecs_inside _ (by decide) (Nat.zero_le _)⟩
  | _ => exact ⟨_, rfl⟩

theorem witness_WorkingRegistersAfterCommands : ∀ i : Instr, ∃ t, exec i State.reset = .next t := witness_CommandFrame

/-- A non-empty aligned input and a misaligned one, for the clauses about DECS. -/
theorem witness_WorkingRegistersAfterCommands_decs :
    (∃ t, exec .decs (withMessage knownKey goodCiphertext) = .next t) ∧
    0 < (withMessage knownKey goodCiphertext).ilen.toNat ∧ (withMessage knownKey goodCiphertext).ilen.toNat % 8 = 0 ∧
    (∃ t, exec .decs (withMessage knownKey (goodCiphertext.take 7)) = .next t) ∧
    (withMessage knownKey (goodCiphertext.take 7)).ilen.toNat % 8 ≠ 0 := by
  have hr := Config.maxLen_range
  have hl : (withMessage knownKey goodCiphertext).ilen.toNat = 8 := by decide +kernel
  have hm : (withMessage knownKey (goodCiphertext.take 7)).ilen.toNat % 8 ≠ 0 := by decide +kernel
  exact ⟨⟨_, execDecs_inside _ (by omega) (by omega)⟩, by omega, by omega, ⟨_, execDecs_misaligned _ hm⟩, hm⟩

theorem witness_EveryCommandReportsItsOutcome : ∀ i : Instr, ∃ t, exec i State.reset = .next t := witness_CommandFrame

theorem witness_StatusIsNeverRead : ∀ i : Instr, ∃ t, exec i State.reset = .next t := witness_CommandFrame

/-- Two states that agree on KEY and DIN and on nothing else that an earlier command leaves. -/
theorem witness_BlockResultsDependOnKeyAndBlock :
    ∃ s s' : State, s.key = s'.key ∧ s.din = s'.din ∧ s.dout ≠ s'.dout ∧ s.olen ≠ s'.olen ∧
      (∃ t, exec .encb s = .next t) ∧ ∃ t', exec .encb s' = .next t' :=
  ⟨State.reset, { State.reset with dout := 1#64, olen := 1#32, c := 1#28 }, rfl, rfl, by decide, by decide, ⟨_, rfl⟩, ⟨_, rfl⟩⟩

/-- Two states that agree on KEY, ILEN and IBUF below ILEN, and differ in OBUF. -/
theorem witness_StreamResultsDependOnTheirInputs :
    ∃ s s' : State, s.key = s'.key ∧ s.ilen = s'.ilen ∧
      (∀ a, a < s.ilen.toNat → readByte s .ibuf a = readByte s' .ibuf a) ∧ s.obuf ≠ s'.obuf ∧
      (∃ t, exec .encs s = .next t) ∧ ∃ t', exec .encs s' = .next t' :=
  ⟨State.reset, { State.reset with obuf := [(0, 1#8)] }, rfl, rfl, fun _ _ => rfl, by decide,
    ⟨_, execEncs_inside _ (Nat.zero_le _)⟩, ⟨_, execEncs_inside _ (Nat.zero_le _)⟩⟩

/-- The reset state with an operation to come meets the invariant. -/
theorem withOps_inv (ops : List HostOp) : (withOps ops).Inv where
  status := by simp [withOps, State.reset, statusValues]
  ilen := Nat.zero_le _
  olen := Nat.zero_le _
  rnd := Nat.zero_le _
  ibuf := rfl
  obuf := rfl

theorem witness_StepKeepsTheInvariant : (withOps [.rd 0x01]).Inv ∧ ∃ t, step (withOps [.rd 0x01]) = .next t :=
  ⟨withOps_inv _, _, rfl⟩

theorem witness_ReachableStatesMeetTheInvariants : Reachable (withOps [.rd 0x01]) := Reachable.start _

theorem witness_EngineNeverLeavesItsBuffers : (withOps [commandOp .encs]).Inv := withOps_inv _

/-- Both sides of the equivalence: a well-formed operation and a reserved number. -/
theorem witness_WellFormedOperationsComplete :
    (withOps [.rd 0x01]).Inv ∧ (withOps [.rd 0x01]).port = .op (.rd 0x01) :: [] ∧ (HostOp.rd 0x01).wf = true ∧
    (withOps [.rd 0x07]).Inv ∧ (withOps [.rd 0x07]).port = .op (.rd 0x07) :: [] ∧ (HostOp.rd 0x07).wf = false :=
  ⟨withOps_inv _, rfl, by decide, withOps_inv _, rfl, by decide⟩

/-- A step that changes KEY. -/
theorem witness_OnlyWrKeyAndGenkeyWriteKey :
    ∃ s t : State, step s = .next t ∧ t.key ≠ s.key :=
  ⟨withOps [.wr 0x02 1#64], _, rfl, by decide⟩

/-- Steps that change DIN, ILEN and IBUF. -/
theorem witness_OnlyTheHostWritesCommandInputs :
    (∃ s t : State, step s = .next t ∧ t.din ≠ s.din) ∧ (∃ s t : State, step s = .next t ∧ t.ilen ≠ s.ilen) ∧
    (∃ s t : State, step s = .next t ∧ t.ibuf ≠ s.ibuf) :=
  ⟨⟨withOps [.wr 0x03 1#64], _, rfl, by decide⟩, ⟨{ withOps [] with ilen := 1#32, port := [.reset] }, _, rfl, by decide⟩,
    ⟨{ withOps [] with ibuf := [(0, 1#8)], port := [.reset] }, _, rfl, by decide⟩⟩

/-- Steps that change DOUT, OLEN and OBUF. -/
theorem witness_OnlyCommandsWriteResults :
    (∃ s t : State, step s = .next t ∧ t.dout ≠ s.dout) ∧ (∃ s t : State, step s = .next t ∧ t.olen ≠ s.olen) ∧
    (∃ s t : State, step s = .next t ∧ t.obuf ≠ s.obuf) :=
  ⟨⟨withOps [commandOp .encb], _, rfl, by decide +kernel⟩, ⟨{ withOps [] with olen := 1#32, port := [.reset] }, _, rfl, by decide⟩,
    ⟨{ withOps [] with obuf := [(0, 1#8)], port := [.reset] }, _, rfl, by decide⟩⟩

/-- The last offset of IBUF. -/
theorem witness_ReadAfterWriteReturnsTheByte :
    Config.maxLen - 1 < Config.maxLen ∧
    (withOps [.wrb (Config.maxLen - 1) 7#8, .rdb .ibuf (Config.maxLen - 1)]).port =
      .op (.wrb (Config.maxLen - 1) 7#8) :: .op (.rdb .ibuf (Config.maxLen - 1)) :: [] := by
  have := Config.maxLen_range
  exact ⟨by omega, rfl⟩

end Sys2Proof.Tests
end

/-! PROOF. STATUS is written by every command and read by none (spec/10_state.md R30): every piece of a command either
commutes with `STATUS <- v` or overwrites it, so `exec` gives the same outcome whatever STATUS held before. -/

namespace Sys2Proof.Machine

section
variable (s : State) (v : BitVec 8)

/-! ### What does not look at STATUS -/

@[simp] theorem readByte_setStatus (b : Buf) (a : Nat) : readByte (s.setStatus v) b a = readByte s b a := by
  cases b <;> rfl

@[simp] theorem memRead_setStatus (b : Buf) (a : Nat) : memRead (s.setStatus v) b a = memRead s b a :=
  blockAt_congr _ _ a fun j _ => readByte_setStatus s v b (a + j)

@[simp] theorem bytesOf_setStatus (b : Buf) (n : Nat) : bytesOf (s.setStatus v) b n = bytesOf s b n := by
  simp [bytesOf]

@[simp] theorem paddedStream_setStatus (n : Nat) : paddedStream (s.setStatus v) n = paddedStream s n := by
  funext m
  simp [paddedStream]

@[simp] theorem padBytesMatch_setStatus (n padN : Nat) : padBytesMatch (s.setStatus v) n padN = padBytesMatch s n padN := by
  simp [padBytesMatch]

/-! ### What commutes with a write of STATUS -/

@[simp] theorem deriveSubkeys_setStatus : deriveSubkeys (s.setStatus v) = (deriveSubkeys s).setStatus v := rfl

@[simp] theorem streamBlock_setStatus (dir : Dir) (block : Block) (i : Nat) :
    streamBlock dir block i (s.setStatus v) = (streamBlock dir block i s).setStatus v := rfl

@[simp] theorem streamLoop_setStatus (dir : Dir) (source : Nat → Block) (count : Nat) :
    streamLoop dir source count (s.setStatus v) = (streamLoop dir source count s).setStatus v := by
  induction count with
  | zero => rfl
  | succ count ih => rw [streamLoop, ih, streamBlock_setStatus]; rfl

@[simp] theorem decryptBlocks_setStatus : decryptBlocks (s.setStatus v) = (decryptBlocks s).setStatus v := by
  simp [decryptBlocks]

/-! ### What overwrites STATUS -/

@[simp] theorem complete_setStatus : complete (s.setStatus v) = complete s := rfl

@[simp] theorem raiseError_setStatus (cmd : Option Instr) (e : ErrKind) :
    raiseError cmd e (s.setStatus v) = raiseError cmd e s := by
  unfold raiseError
  split <;> rfl

@[simp] theorem blockCommand_setStatus (dir : Dir) : blockCommand dir (s.setStatus v) = blockCommand dir s := rfl

@[simp] theorem State.setOlen_setStatus (n : Len) : (s.setStatus v).setOlen n = (s.setOlen n).setStatus v := rfl

@[simp] theorem encryptStream_setStatus : encryptStream (s.setStatus v) = encryptStream s := by
  simp [encryptStream]

@[simp] theorem unpad_setStatus (n : Nat) : unpad n (s.setStatus v) = unpad n s := by
  simp [unpad]

/-- No command's outcome, a fault included, depends on what STATUS held before it. -/
theorem exec_setStatus (i : Instr) : exec i (s.setStatus v) = exec i s := by
  cases i with
  | genkey | keyexp | encb | decb => rfl
  | encs => simp [exec, execEncs]
  | decs => simp [exec, execDecs]

end

/-- Settles O45: `exec` does not look at STATUS at all. -/
theorem statusIsNeverRead : Obligations.StatusIsNeverRead := by
  intro i s t v h
  exact (exec_setStatus s v i).trans h

end Sys2Proof.Machine

/-! PROOF. Blocks as numbers (spec/20_memory.md R42, R43): the block that eight bytes form, and the bytes of a block, written
with their weights, so that MemRead and MemWrite are big-endian. -/

namespace Sys2Proof.Machine

/-- Appending a byte below a word weighs the word by 2^8 (20_memory.md R42). -/
theorem toNat_append_byte {w : Nat} (x : BitVec w) (y : Byte) : (x ++ y).toNat = x.toNat * 2 ^ 8 + y.toNat := by
  rw [BitVec.toNat_append, ← Nat.shiftLeft_add_eq_or_of_lt y.isLt, Nat.shiftLeft_eq]

/-- The value of the block that eight bytes of a sequence form: the byte at the lowest position weighs most. -/
theorem toNat_blockAt (f : Nat → Byte) (a : Nat) : (blockAt f a).toNat =
    (f a).toNat * 2 ^ 56 + (f (a + 1)).toNat * 2 ^ 48 + (f (a + 2)).toNat * 2 ^ 40 + (f (a + 3)).toNat * 2 ^ 32 +
    (f (a + 4)).toNat * 2 ^ 24 + (f (a + 5)).toNat * 2 ^ 16 + (f (a + 6)).toNat * 2 ^ 8 + (f (a + 7)).toNat := by
  simp only [blockAt, toNat_append_byte]
  omega

/-- Byte j of a block as a number: bits [8(8-j)-1 : 8(7-j)] (30_encoding.md R67). -/
theorem toNat_blockByte (v : Block) (j : Nat) : (blockByte v j).toNat = v.toNat / 2 ^ (56 - 8 * j) % 2 ^ 8 := by
  rw [blockByte, BitVec.extractLsb'_toNat, Nat.shiftRight_eq_div_pow]

/-- Settles O18: the weights of MemRead are those of the appended bytes, and MemWrite is `readByte_memWrite` inside the
eight offsets and outside them. -/
theorem blocksAreBigEndian : Obligations.BlocksAreBigEndian := by
  refine ⟨fun s b a => toNat_blockAt (readByte s b) a, fun s a v => ⟨Memory.writeBlock s.obuf a v, rfl, ?_, ?_⟩⟩
  · intro j hj
    have hbits : 56 - 8 * j = 8 * (7 - j) := by omega
    rw [readByte_memWrite, if_pos (by omega), Nat.add_sub_cancel_left, toNat_blockByte, hbits]
  · intro x hx
    rw [readByte_memWrite, if_neg (by omega)]

end Sys2Proof.Machine

/-! PROOF. Words that are no command (spec/30_encoding.md R62, R63, spec/60_exceptions.md R215): every row's mask covers the
whole word, so only the six patterns decode to a command, and WR CMD of any other word reports IllegalCommand. -/

namespace Sys2Proof

/-- Every row of the opcode map compares the whole word (30_encoding.md R64). -/
theorem mask_eq_allOnes_of_mem_opcodeMap : ∀ row ∈ opcodeMap, row.mask = BitVec.allOnes 8 := by decide

/-- A word matches a row of the opcode map exactly when it is the row's pattern. -/
theorem rowMatches_iff_of_mem_opcodeMap {row : OpRow} (hrow : row ∈ opcodeMap) (v : Byte) :
    rowMatches v row = true ↔ v = row.pattern := by
  rw [rowMatches, mask_eq_allOnes_of_mem_opcodeMap row hrow, BitVec.and_allOnes, beq_iff_eq]

/-- The words rejected as Illegal are those that are no row's pattern (30_encoding.md R62, R63). -/
theorem decode_eq_illegal_iff (v : Byte) : decode v = .illegal v ↔ v ∉ opcodeMap.map OpRow.pattern := by
  have hfind : decode v = .illegal v ↔ opcodeMap.find? (rowMatches v) = none := by
    unfold decode
    cases opcodeMap.find? (rowMatches v) <;> simp
  rw [hfind, List.find?_eq_none, List.mem_map]
  constructor
  · rintro hnone ⟨row, hrow, rfl⟩
    exact hnone row hrow ((rowMatches_iff_of_mem_opcodeMap hrow _).mpr rfl)
  · intro hv row hrow hmatch
    exact hv ⟨row, hrow, ((rowMatches_iff_of_mem_opcodeMap hrow v).mp hmatch).symm⟩

namespace Machine

/-- Every byte fits CMD, which is 8 bits wide. -/
@[simp] theorem fitsReg_cmd_setWidth (v : Byte) : fitsReg .cmd (v.setWidth 64) = true := by
  simp only [fitsReg, regWidth, BitVec.toNat_setWidth, decide_eq_true_eq]
  omega

/-- The step on WR CMD of a byte dispatches that byte on the state without the input (45_host_access.md R193). -/
theorem step_wr_cmd (s : State) (rest : List Input) (v : Byte) (h : s.port = .op (.wr 0x00 (v.setWidth 64)) :: rest) :
    step s = runCommand v (s.setPort rest) := by
  have hword : (v.setWidth 64).setWidth 8 = v := BitVec.setWidth_setWidth_of_le v (by decide)
  calc step s = hostWrite 0x00 (v.setWidth 64) (s.setPort rest) := step_input s _ rest h
    _ = writeReg .cmd (v.setWidth 64) (s.setPort rest) := if_pos (fitsReg_cmd_setWidth v)
    _ = runCommand v (s.setPort rest) := by rw [writeReg, hword]

/-- A word that is no command writes STATUS and nothing else (60_exceptions.md R215). -/
theorem runCommand_illegal (v : Byte) (s : State) (h : decode v = .illegal v) :
    runCommand v s = .next { s with status := 0x04#8 } := by
  obtain ⟨i, hi, -⟩ | ⟨-, hrun⟩ := runCommand_cases v s
  · cases hi.symm.trans h
  · exact hrun

/-- Settles O3: the six words are the patterns of the opcode map, so any other word decodes to Illegal, and the step on
WR CMD runs `runCommand`. -/
theorem illegalCommandWordOnlySetsStatus : Obligations.IllegalCommandWordOnlySetsStatus := by
  intro s rest v hv hport
  have hdecode : decode v = .illegal v := (decode_eq_illegal_iff v).mpr hv
  rw [step_wr_cmd s rest v hport, runCommand_illegal v _ hdecode]
  rfl

end Machine

end Sys2Proof

/-! PROOF. The key schedule (spec/40_key_schedule.md R84, R85): `rotl28` is rotation within 28 bits, and the subkey of a
round is PC-2 of the halves of PC-1 after that round's rotation. -/

namespace Sys2Proof.Machine

/-! ### Rotation within 28 bits -/

/-- `rotl28` is the library's rotation of a 28-bit word. -/
theorem rotl28_eq_rotateLeft (x : KeyHalf) (n : Nat) (h : n < 28) : rotl28 x n = x.rotateLeft n := by
  rw [BitVec.rotateLeft_def, Nat.mod_eq_of_lt h, rotl28]

/-- The n low bits come from the top, every other bit moves up by n (40_key_schedule.md R84). -/
theorem getLsbD_rotl28 (x : KeyHalf) (n i : Nat) (hn : n < 28) (hi : i < 28) :
    (rotl28 x n).getLsbD i = if i < n then x.getLsbD (28 - n + i) else x.getLsbD (i - n) := by
  rw [rotl28_eq_rotateLeft x n hn, BitVec.getLsbD_rotateLeft, Nat.mod_eq_of_lt hn, Bool.cond_decide, decide_eq_true hi,
    Bool.true_and]

/-- The bits that stay and the bits that re-enter share no position. -/
theorem shiftLeft_and_ushiftRight_eq_zero (x : KeyHalf) (n : Nat) : x <<< n &&& x >>> (28 - n) = 0#28 := by
  apply BitVec.eq_of_getLsbD_eq
  intro i hi
  rw [BitVec.getLsbD_and, BitVec.getLsbD_shiftLeft, BitVec.getLsbD_ushiftRight, BitVec.getLsbD_zero]
  by_cases h : i < n
  · simp [h]
  · rw [x.getLsbD_of_ge (28 - n + i) (by omega), Bool.and_false]

/-- The value of a rotation: the two parts share no bit, so they add without carry (40_key_schedule.md R84). -/
theorem toNat_rotl28 (x : KeyHalf) (n : Nat) :
    (rotl28 x n).toNat = (x.toNat <<< n) % 2 ^ 28 + (x.toNat >>> (28 - n)) := by
  have hdisjoint := shiftLeft_and_ushiftRight_eq_zero x n
  rw [rotl28, ← BitVec.add_eq_or_of_and_eq_zero _ _ hdisjoint, BitVec.toNat_add_of_and_eq_zero hdisjoint,
    BitVec.toNat_shiftLeft, BitVec.toNat_ushiftRight]

/-- Settles O19: both forms hold for every amount below 28, so for 1 and 2. -/
theorem rotationWithinTwentyEightBits : Obligations.RotationWithinTwentyEightBits := by
  intro x n hn
  have hlt : n < 28 := by omega
  exact ⟨toNat_rotl28 x n, fun i hi => getLsbD_rotl28 x n i hlt hi⟩

/-! ### The halves round by round -/

/-- The halves C_i and D_i: those of PC-1 after the first i rotations (40_key_schedule.md R85). -/
def halvesAfter (key : Key) (i : Nat) : KeyHalf × KeyHalf := (rotTable.take i).foldl rotateHalves (initialKeyHalves key)

/-- C_0 and D_0 are the halves of PC-1. -/
theorem halvesAfter_zero (key : Key) : halvesAfter key 0 = initialKeyHalves key := rfl

/-- Round i + 1 rotates the halves of round i by the entry of ROT. -/
theorem halvesAfter_succ (key : Key) (i : Nat) (h : i < 16) :
    halvesAfter key (i + 1) = rotateHalves (halvesAfter key i) (rotTable.getD i 0) := by
  have hlen : i < rotTable.length := h
  rw [halvesAfter, List.take_succ_eq_append_getElem hlen, List.foldl_concat, List.getD_eq_getElem _ _ hlen]
  rfl

/-- Entry i of the list of halves is what the first i + 1 rotations give. -/
theorem getElem_halvesPerRound (rots : List Nat) (cd : KeyHalf × KeyHalf) (i : Nat)
    (h : i < (halvesPerRound rots cd).length) :
    (halvesPerRound rots cd)[i] = (rots.take (i + 1)).foldl rotateHalves cd := by
  induction rots generalizing cd i with
  | nil => cases h
  | cons n rest ih =>
    cases i with
    | zero => rfl
    | succ i => exact ih (rotateHalves cd n) i (Nat.lt_of_succ_lt_succ h)

/-- Subkey K[i] is PC-2 of the halves of round i + 1 (40_key_schedule.md R85, R87). -/
theorem getElem_keySchedule (key : Key) (i : Nat) (h : i < 16) :
    (keySchedule key)[i] = subkeyOfHalves (halvesAfter key (i + 1)) := by
  simp only [keySchedule, Vector.getElem_mk, List.getElem_toArray, List.getElem_map, getElem_halvesPerRound]
  rfl

/-- Settles O20: C_i and D_i are the two components of `halvesAfter`. -/
theorem subkeysFollowTheRoundIteration : Obligations.SubkeysFollowTheRoundIteration := by
  intro key
  have hstart := halvesAfter_zero key
  refine ⟨fun i => (halvesAfter key i).1, fun i => (halvesAfter key i).2, congrArg Prod.fst hstart,
    congrArg Prod.snd hstart, fun i h => ?_⟩
  have hround := halvesAfter_succ key i h
  exact ⟨congrArg Prod.fst hround, congrArg Prod.snd hround, getElem_keySchedule key i h⟩

end Sys2Proof.Machine

/-! PROOF. The key commands GENKEY and KEYEXP (spec/40_key_schedule.md R91, R92): what each writes, and that it leaves
everything else as it was. -/

namespace Sys2Proof.Machine

/-- Everything GENKEY writes (40_key_schedule.md R92); every other field is as before. -/
theorem execGenkey_eq (s : State) : execGenkey s = .next
    { s with key := keyOfDraw (Config.rng s.draws), status := 0x08#8, draws := s.draws + 1 } := rfl

/-- The key of a draw as a number: the draw times 2^8 (40_key_schedule.md R92). -/
theorem toNat_keyOfDraw (draw : BitVec 56) : (keyOfDraw draw).toNat = draw.toNat * 2 ^ 8 := by
  rw [keyOfDraw, toNat_append_byte, BitVec.toNat_ofNat, Nat.zero_mod, Nat.add_zero]

/-- Settles O30: GENKEY is one update of KEY, STATUS and the count of draws. -/
theorem genkeyCompletes : Obligations.GenkeyCompletes := by
  intro s
  exact ⟨_, execGenkey_eq s, toNat_keyOfDraw (Config.rng s.draws), rfl, rfl⟩

/-- The state after KEYEXP: the derivation and the success it reports (40_key_schedule.md R91). -/
theorem exec_keyexp (s : State) : exec .keyexp s = .next (complete (deriveSubkeys s)) := rfl

/-- The registers KEYEXP may not write read as before: those but K[i] and STATUS (40_key_schedule.md R91). -/
theorem sameRegs_keyexp (s : State) : sameRegs (writesReg .keyexp) s (complete (deriveSubkeys s)) := by
  intro reg hreg
  cases reg with
  | k i | status => cases hreg
  | cmd | key | din | dout | ilen | olen => rfl

/-- Settles O31: KEYEXP writes K as a function of KEY and leaves KEY as it was, so a second run gives the same K. -/
theorem keyexpCompletes : Obligations.KeyexpCompletes := by
  intro s
  have hibuf : sameIbuf s (complete (deriveSubkeys s)) := readByte_ibuf_congr _ _ rfl rfl
  have hobuf : sameObufFrom 0 s (complete (deriveSubkeys s)) := fun a _ => readByte_obuf_congr _ _ rfl rfl a
  exact ⟨_, exec_keyexp s, rfl, rfl, sameRegs_keyexp s, hibuf, hobuf, ⟨rfl, rfl, rfl⟩, rfl, _, exec_keyexp _, rfl⟩

end Sys2Proof.Machine

/-! PROOF. The S-box layer (spec/42_f_function.md R124, R125, R134): the row and the column of a group as numbers made of its
bits, the value of a lookup as the table's own entry, and the eight lanes of `substitute`. -/

namespace Sys2Proof.Machine

/-! ### Fields of a word as numbers -/

/-- A field of one bit is that bit. -/
theorem extractLsb'_one_eq_ofBool {w : Nat} (x : BitVec w) (i : Nat) : x.extractLsb' i 1 = BitVec.ofBool (x.getLsbD i) := by
  apply BitVec.eq_of_getLsbD_eq
  intro k hk
  obtain rfl : k = 0 := by omega
  simp

/-- A field weighs its bits above the lowest twice, and its lowest bit once. -/
theorem toNat_extractLsb'_succ {w : Nat} (x : BitVec w) (i n : Nat) :
    (x.extractLsb' i (n + 1)).toNat = 2 * (x.extractLsb' (i + 1) n).toNat + (x.getLsbD i).toNat := by
  have hconcat : x.extractLsb' i (n + 1) = (x.extractLsb' (i + 1) n).concat (x.getLsbD i) := by
    rw [BitVec.concat, ← extractLsb'_one_eq_ofBool, BitVec.extractLsb'_append_extractLsb'_eq_extractLsb' rfl]
  rw [hconcat, BitVec.toNat_concat, Nat.mul_comm]

/-! ### One lookup -/

/-- Bit i of group j + 1 is bit i above the group's lowest bit in the 48-bit value (42_f_function.md R124). -/
theorem getLsbD_group_succ (x : BitVec 48) (j i : Nat) (hi : i < 6) :
    (group x (j + 1)).getLsbD i = x.getLsbD (42 - 6 * j + i) := by
  have hlow : 48 - 6 * (j + 1) = 42 - 6 * j := by omega
  rw [group, BitVec.getLsbD_extractLsb', decide_eq_true hi, Bool.true_and, hlow]

/-- The row number is made of the outer bits of the group (42_f_function.md R125). -/
theorem toNat_sboxRow (g : BitVec 6) : (sboxRow g).toNat = 2 * (g.getLsbD 5).toNat + (g.getLsbD 0).toNat := by
  have hconcat : sboxRow g = (BitVec.ofBool (g.getLsbD 5)).concat (g.getLsbD 0) := by
    rw [sboxRow, extractLsb'_one_eq_ofBool, extractLsb'_one_eq_ofBool, BitVec.concat]
  rw [hconcat, BitVec.toNat_concat, BitVec.toNat_ofBool, Nat.mul_comm]

/-- The column number is made of the four inner bits of the group (42_f_function.md R125). -/
theorem toNat_sboxCol (g : BitVec 6) : (sboxCol g).toNat =
    8 * (g.getLsbD 4).toNat + 4 * (g.getLsbD 3).toNat + 2 * (g.getLsbD 2).toNat + (g.getLsbD 1).toNat := by
  rw [sboxCol, toNat_extractLsb'_succ g 1 3, toNat_extractLsb'_succ g 2 2, toNat_extractLsb'_succ g 3 1,
    extractLsb'_one_eq_ofBool g 4, BitVec.toNat_ofBool]
  omega

/-- A lookup loses nothing of the table's entry: row and column are inside the table, and its entries fit four bits
(42_f_function.md R125). -/
theorem toNat_sboxLookup {box : List (List Nat)} (hbox : box ∈ [sbox1, sbox2, sbox3, sbox4, sbox5, sbox6, sbox7, sbox8])
    (g : BitVec 6) : (sboxLookup box g).toNat = (box.getD (sboxRow g).toNat []).getD (sboxCol g).toNat 0 := by
  obtain ⟨hrows, heach⟩ := sbox_rows_permute box hbox
  have hrow : (sboxRow g).toNat < box.length := hrows ▸ (sboxRow g).isLt
  rw [sboxLookup, BitVec.toNat_ofNat, List.getD_eq_getElem _ _ hrow]
  obtain ⟨hcols, -, hentry⟩ := heach _ (List.getElem_mem hrow)
  have hcol : (sboxCol g).toNat < box[(sboxRow g).toNat].length := hcols ▸ (sboxCol g).isLt
  rw [List.getD_eq_getElem _ _ hcol, Nat.mod_eq_of_lt (hentry _ (List.getElem_mem hcol))]

/-! ### The eight lanes -/

/-- Above an appended nibble stand the nibbles that were there, four bits higher. -/
theorem extractLsb'_append_nibble {w : Nat} (x : BitVec w) (y : BitVec 4) (k : Nat) :
    (x ++ y).extractLsb' (k + 4) 4 = x.extractLsb' k 4 := by
  rw [BitVec.extractLsb'_append_eq_of_le (Nat.le_add_left 4 k), Nat.add_sub_cancel]

/-- Nibble j of the output, counted from the most-significant end, is the lookup of the group at the same place in S-box
j + 1: the nibbles below it are dropped one by one (42_f_function.md R134). -/
theorem extractLsb'_substitute (x : BitVec 48) (j : Nat) (h : j < 8) : (substitute x).extractLsb' (28 - 4 * j) 4 =
    sboxLookup ([sbox1, sbox2, sbox3, sbox4, sbox5, sbox6, sbox7, sbox8][j]'h) (group x (j + 1)) := by
  unfold substitute
  interval_cases j <;>
    simp only [Nat.reduceMul, Nat.reduceSub, extractLsb'_append_nibble, BitVec.extractLsb'_append_eq_right (w' := 4),
      BitVec.extractLsb'_eq_self] <;>
    rfl

/-- Settles O24: lane j is one lookup, whose row and column are made of the bits of group j + 1. -/
theorem substitutionIsLaneWise : Obligations.SubstitutionIsLaneWise := by
  intro x j h
  rw [extractLsb'_substitute x j h, toNat_sboxLookup (List.getElem_mem h), toNat_sboxRow, toNat_sboxCol]
  simp only [getLsbD_group_succ, Nat.reduceLT, Nat.add_zero]

end Sys2Proof.Machine

/-! PROOF. The block transform (spec/43_block_transform.md R140 to R148): the halves of CRYPT round by round in either
direction, and ENCB and DECB as one command in two directions. -/

namespace Sys2Proof.Machine

/-! ### The order of the subkeys -/

/-- Either direction uses each of the sixteen subkeys once. -/
theorem length_subkeyOrder (dir : Dir) (ks : Vector Subkey 16) : (subkeyOrder dir ks).length = 16 := by
  cases dir with
  | enc => exact ks.length_toList
  | dec => exact (List.length_reverse).trans ks.length_toList

/-- Round i + 1 of encryption uses K[i] (43_block_transform.md R144). -/
theorem getElem_subkeyOrder_enc (ks : Vector Subkey 16) (i : Nat) (h : i < 16) :
    (subkeyOrder .enc ks)[i]'(h.trans_eq (length_subkeyOrder _ ks).symm) = ks[i] := Vector.getElem_toList _

/-- Round n = i + 1 of decryption uses K[16 - n] (43_block_transform.md R144). -/
theorem getElem_subkeyOrder_dec (ks : Vector Subkey 16) (i : Nat) (h : i < 16) :
    (subkeyOrder .dec ks)[i]'(h.trans_eq (length_subkeyOrder _ ks).symm) = ks[16 - (i + 1)] := by
  simp only [subkeyOrder, List.getElem_reverse, Vector.length_toList, Vector.getElem_toList, Nat.sub_sub, Nat.add_comm 1 i]

/-! ### The halves round by round -/

/-- The halves L_n and R_n: those of IP(block) after the first n rounds (43_block_transform.md R142, R143). -/
def halvesOfRound (block : Block) (key : Key) (dir : Dir) (n : Nat) : Half × Half :=
  ((subkeyOrder dir (keySchedule key)).take n).foldl feistelRound (initialHalves block)

/-- L_0 and R_0 are the halves of IP(block). -/
theorem halvesOfRound_zero (block : Block) (key : Key) (dir : Dir) :
    halvesOfRound block key dir 0 = initialHalves block := rfl

/-- Round i + 1 is one Feistel round with the subkey at place i of the direction's order. -/
theorem halvesOfRound_succ (block : Block) (key : Key) (dir : Dir) (i : Nat)
    (h : i < (subkeyOrder dir (keySchedule key)).length) :
    halvesOfRound block key dir (i + 1) =
      feistelRound (halvesOfRound block key dir i) (subkeyOrder dir (keySchedule key))[i] := by
  rw [halvesOfRound, List.take_succ_eq_append_getElem h, List.foldl_concat]
  rfl

/-- L_16 and R_16 are the halves the transform ends with. -/
theorem halvesOfRound_sixteen (block : Block) (key : Key) (dir : Dir) :
    halvesOfRound block key dir 16 = finalHalves block key dir := by
  rw [halvesOfRound, List.take_of_length_le (length_subkeyOrder dir _).le, finalHalves]

/-- Settles O26: L_n and R_n are the two components of `halvesOfRound`. -/
theorem cryptFollowsTheRoundFormula : Obligations.CryptFollowsTheRoundFormula := by
  intro block key dir
  have hstart := halvesOfRound_zero block key dir
  refine ⟨fun n => (halvesOfRound block key dir n).1, fun n => (halvesOfRound block key dir n).2,
    congrArg Prod.fst hstart, congrArg Prod.snd hstart, fun n h1 h2 => ?_,
    congrArg outputOfHalves (halvesOfRound_sixteen block key dir).symm⟩
  obtain ⟨i, rfl⟩ : ∃ i, n = i + 1 := ⟨n - 1, by omega⟩
  have hround := halvesOfRound_succ block key dir i (h2.trans_eq (length_subkeyOrder dir _).symm)
  refine ⟨congrArg Prod.fst hround, (congrArg Prod.snd hround).trans ?_⟩
  cases dir with
  | enc => rw [getElem_subkeyOrder_enc _ _ h2]; rfl
  | dec => rw [getElem_subkeyOrder_dec _ _ h2]; rfl

/-! ### ENCB and DECB -/

/-- The block command of each direction (30_encoding.md R61). -/
def blockInstr : Dir → Instr
  | .enc => .encb
  | .dec => .decb

/-- The two block commands are `blockCommand` in their direction (43_block_transform.md R147, R148). -/
theorem exec_blockInstr (dir : Dir) (s : State) : exec (blockInstr dir) s = .next (blockCommand dir s) := by
  cases dir <;> rfl

/-- The registers a block command may not write read as before: those but DOUT, K[i] and STATUS
(43_block_transform.md R147, R148). -/
theorem sameRegs_blockInstr (dir : Dir) (s : State) : sameRegs (writesReg (blockInstr dir)) s (blockCommand dir s) := by
  intro reg hreg
  cases reg with
  | k i | dout | status => cases dir <;> cases hreg
  | cmd | key | din | ilen | olen => rfl

/-- What R147 and R148 of 43_block_transform.md say of ENCB and DECB, in one statement over the direction: it decides DOUT
only, K is in schedule order for both. -/
theorem blockInstr_completes (dir : Dir) (s : State) : ∃ t, exec (blockInstr dir) s = .next t ∧
    t.dout = crypt s.din s.key dir ∧ t.k = keySchedule s.key ∧ t.status = 0x08#8 ∧
    sameRegs (writesReg (blockInstr dir)) s t ∧ sameIbuf s t ∧ sameObufFrom 0 s t ∧ sameOutside s t ∧
    t.draws = s.draws := by
  have hibuf : sameIbuf s (blockCommand dir s) := readByte_ibuf_congr _ _ rfl rfl
  have hobuf : sameObufFrom 0 s (blockCommand dir s) := fun a _ => readByte_obuf_congr _ _ rfl rfl a
  exact ⟨_, exec_blockInstr dir s, rfl, rfl, rfl, sameRegs_blockInstr dir s, hibuf, hobuf, ⟨rfl, rfl, rfl⟩, rfl⟩

/-- Settles O32: ENCB is the block command that encrypts. -/
theorem encbCompletes : Obligations.EncbCompletes := blockInstr_completes .enc

/-- Settles O33: DECB is the block command that decrypts. -/
theorem decbCompletes : Obligations.DecbCompletes := blockInstr_completes .dec

end Sys2Proof.Machine

/-! PROOF. The padded stream (spec/44_ecb_stream.md R160, R161): the arithmetic of the pad length, and the padded stream of
the input as the statements name it. -/

namespace Sys2Proof.Machine

/-- The pad length fills the last block, so the padded length is a whole number of blocks (44_ecb_stream.md R160, R162). -/
theorem add_padLength (n : Nat) : n + padLength n = 8 * paddedBlocks n := by
  simp only [padLength, paddedBlocks]; omega

/-- A multiple of 8 is padded with a full block (44_ecb_stream.md R160). -/
theorem padLength_of_aligned (n : Nat) (h : n % 8 = 0) : padLength n = 8 := by rw [padLength, h]

/-- From position n on the padded stream holds the pad length (44_ecb_stream.md R161). -/
theorem paddedStream_add (s : State) (n j : Nat) : paddedStream s n (n + j) = BitVec.ofNat 8 (padLength n) :=
  if_neg (Nat.not_lt.mpr (Nat.le_add_right n j))

/-- The block that follows an aligned input is eight bytes of value 8 (44_ecb_stream.md R160). -/
theorem blockAt_paddedStream_aligned (s : State) (n : Nat) (h : n % 8 = 0) :
    blockAt (paddedStream s n) n = 0x0808080808080808#64 := by
  rw [blockAt_congr _ (fun _ => 0x08#8) n fun j _ => by rw [paddedStream_add, padLength_of_aligned n h]]
  simp only [blockAt]
  rfl

/-- Settles O36: the pad length is what `n mod 8` leaves of a block. -/
theorem paddingAlwaysAdds : Obligations.PaddingAlwaysAdds := by
  intro n
  obtain ⟨hpos, hle⟩ : 1 ≤ padLength n ∧ padLength n ≤ 8 := by simp only [padLength]; omega
  exact ⟨rfl, hpos, hle, add_padLength n, Nat.lt_add_of_pos_right hpos,
    fun h => ⟨padLength_of_aligned n h, fun s => blockAt_paddedStream_aligned s n h⟩⟩

/-- The padded stream of the input is a function of ILEN and IBUF (44_ecb_stream.md R161). -/
theorem paddedByte_congr (s t : State) (hlen : t.ilen = s.ilen) (hibuf : sameIbuf s t) : paddedByte t = paddedByte s := by
  funext m
  rw [paddedByte, paddedByte, hlen, hibuf m]

end Sys2Proof.Machine

/-! PROOF. What the stream commands leave alone (spec/44_ecb_stream.md R163, R165; spec/45_host_access.md R199): ENCS and
DECS write K, OLEN, STATUS, OBUF and working registers, and nothing else. -/

namespace Sys2Proof.Machine

/-- `t` is `s` but for what a stream command may write: K, OLEN, STATUS, OBUF and the working registers. -/
def StreamFrame (s t : State) : Prop :=
  t = { s with k := t.k, olen := t.olen, status := t.status, obuf := t.obuf, c := t.c, d := t.d, l := t.l, r := t.r,
               rnd := t.rnd, blk := t.blk }

/-- ENCS writes no more than a stream command may. -/
theorem streamFrame_encryptStream (s : State) : StreamFrame s (encryptStream s) := by
  obtain ⟨_, _, _, _, _, h⟩ := encryptStream_frame s
  rw [h]; rfl

/-- The block decryption and the unpadding checks of DECS write no more than a stream command may. -/
theorem streamFrame_unpad_decryptBlocks (n : Nat) (s : State) : StreamFrame s (unpad n (decryptBlocks s)) := by
  obtain ⟨_, _, hunpad⟩ := unpad_frame n (decryptBlocks s)
  obtain ⟨_, _, _, _, _, hblocks⟩ := decryptBlocks_frame s
  rw [hunpad, hblocks]; rfl

namespace StreamFrame

variable {s t : State} (h : StreamFrame s t)
include h

/-- KEY is not a result (10_state.md R12). -/
theorem key_eq : t.key = s.key := by rw [h]

/-- ILEN is written by the host alone (10_state.md R18). -/
theorem ilen_eq : t.ilen = s.ilen := by rw [h]

/-- A stream command takes no draw (log 5). -/
theorem draws_eq : t.draws = s.draws := by rw [h]

/-- The registers a stream command may not write read as before: those but OLEN, K[i] and STATUS. -/
theorem sameRegs_of {i : Instr} (hi : i = .encs ∨ i = .decs) : sameRegs (writesReg i) s t := by
  intro reg hreg
  rw [h]
  cases reg with
  | k _ | olen | status => rcases hi with rfl | rfl <;> cases hreg
  | cmd | key | din | dout | ilen => rfl

/-- IBUF is written by the host alone (10_state.md R20). -/
theorem sameIbuf_of : sameIbuf s t := by
  intro a
  exact readByte_ibuf_congr s t (by rw [h]) (by rw [h]) a

/-- The port, the replies and the count of resets are the outside world's (log 1, 2, 7). -/
theorem sameOutside_of : sameOutside s t := by
  rw [h]; exact ⟨rfl, rfl, rfl⟩

end StreamFrame

end Sys2Proof.Machine

/-! PROOF. ENCS (spec/44_ecb_stream.md R163, R164): the output byte by byte, as a function of KEY and the padded stream. -/

namespace Sys2Proof.Machine

/-- ENCS answers a next state exactly when ILEN fits the buffer (44_ecb_stream.md R163). -/
theorem exec_encs_eq_next_iff (s t : State) :
    exec .encs s = .next t ↔ s.ilen.toNat ≤ Config.maxLen ∧ t = encryptStream s := by
  show execEncs s = .next t ↔ _
  rcases execEncs_cases s with ⟨hin, hexec⟩ | ⟨hout, hexec⟩ <;> rw [hexec]
  · simp only [Host.Outcome.next.injEq, hin, true_and]
    exact eq_comm
  · exact ⟨nofun, fun ⟨hin, _⟩ => absurd hin hout.not_ge⟩

/-- ENCS leaves KS(KEY) in K. -/
theorem encryptStream_k (s : State) : (encryptStream s).k = keySchedule s.key := by
  obtain ⟨_, _, _, _, _, h⟩ := encryptStream_frame s
  rw [h]

/-- OLEN after ENCS is the padded length, which does not wrap (44_ecb_stream.md R163, R173). -/
theorem toNat_encryptStream_olen (s : State) (hlen : s.ilen.toNat ≤ Config.maxLen) :
    (encryptStream s).olen.toNat = 8 * paddedBlocks s.ilen.toNat := by
  have hmax := Config.maxLen_range.2
  refine Nat.mod_eq_of_lt ?_
  rw [← add_padLength, padLength]
  omega

/-- Byte m of output block i is byte m of the encryption of padded block i (44_ecb_stream.md R163, 20_memory.md R43). -/
theorem readByte_encryptStream_block (s : State) (i m : Nat) (hi : i < paddedBlocks s.ilen.toNat) (hm : m < 8) :
    readByte (encryptStream s) .obuf (8 * i + m) = blockByte (crypt (blockAt (paddedByte s) (8 * i)) s.key .enc) m := by
  have hdiv : (8 * i + m) / 8 = i := by omega
  have hmod : (8 * i + m) % 8 = m := by omega
  rw [readByte_encryptStream, if_pos (by omega), hdiv, hmod]
  rfl

/-- Output block i is the encryption of padded block i (44_ecb_stream.md R163). -/
theorem memRead_encryptStream (s : State) (i : Nat) (hi : i < paddedBlocks s.ilen.toNat) :
    memRead (encryptStream s) .obuf (8 * i) = crypt (blockAt (paddedByte s) (8 * i)) s.key .enc :=
  memRead_streamLoop .enc (fun i => blockAt (paddedStream s s.ilen.toNat) (8 * i)) _ (deriveSubkeys s) i hi

/-- ENCS leaves OBUF from the padded length on as it was (44_ecb_stream.md R163). -/
theorem sameObufFrom_encryptStream (s : State) : sameObufFrom (8 * paddedBlocks s.ilen.toNat) s (encryptStream s) := by
  intro a ha
  rw [readByte_encryptStream, if_neg ha.not_gt]

/-- Settles O35: inside the buffers ENCS answers `encryptStream`, whose output and frame the lemmas above give. -/
theorem encsCompletes : Obligations.EncsCompletes := by
  intro s hlen
  have hframe := streamFrame_encryptStream s
  exact ⟨encryptStream s, execEncs_inside s hlen, rfl, encryptStream_k s, toNat_encryptStream_olen s hlen,
    memRead_encryptStream s, hframe.sameRegs_of (.inl rfl), hframe.sameIbuf_of, sameObufFrom_encryptStream s,
    hframe.sameOutside_of, hframe.draws_eq⟩

/-- ENCS run on its own result writes the same output again: it has changed none of its inputs (44_ecb_stream.md R164). -/
theorem readByte_encryptStream_twice (s : State) (a : Nat) (ha : a < 8 * paddedBlocks s.ilen.toNat) :
    readByte (encryptStream (encryptStream s)) .obuf a = readByte (encryptStream s) .obuf a := by
  have hframe := streamFrame_encryptStream s
  obtain ⟨i, m, hi, hm, rfl⟩ : ∃ i m, i < paddedBlocks s.ilen.toNat ∧ m < 8 ∧ a = 8 * i + m :=
    ⟨a / 8, a % 8, by omega, by omega, by omega⟩
  rw [readByte_encryptStream_block _ i m (by rwa [hframe.ilen_eq]) hm, readByte_encryptStream_block s i m hi hm,
    paddedByte_congr s _ hframe.ilen_eq hframe.sameIbuf_of, hframe.key_eq]

/-- Settles O37: an output block is a function of its padded block and KEY, and ENCS keeps KEY, ILEN and IBUF. -/
theorem ecbEqualBlocksGiveEqualBlocks : Obligations.EcbEqualBlocksGiveEqualBlocks := by
  intro s s' t t' hkey ht ht'
  obtain ⟨hlen, rfl⟩ := (exec_encs_eq_next_iff s t).mp ht
  obtain ⟨-, rfl⟩ := (exec_encs_eq_next_iff s' t').mp ht'
  have hilen := (streamFrame_encryptStream s).ilen_eq
  refine ⟨fun i j hi hj hblock m hm => ?_, encryptStream (encryptStream s), ?_, ?_, fun a ha => ?_⟩
  · rw [readByte_encryptStream_block s i m hi hm, readByte_encryptStream_block s' j m hj hm, hblock, hkey]
  · exact execEncs_inside _ (by rwa [hilen])
  · exact congrArg (fun n : Len => BitVec.ofNat 32 (8 * paddedBlocks n.toNat)) hilen
  · exact readByte_encryptStream_twice s a (by rwa [toNat_encryptStream_olen s hlen] at ha)

end Sys2Proof.Machine

/-! PROOF. DECS (spec/44_ecb_stream.md R165 to R172): the decrypted stream in OBUF, the unpadding checks in terms of it, and
the three outcomes. -/

namespace Sys2Proof.Machine

/-- Settles O38: the length check comes first and raises LengthInvalid. -/
theorem decsRejectsBadLength : Obligations.DecsRejectsBadLength := by
  intro s h8
  exact execDecs_misaligned s h8

/-! ### The decrypted stream -/

section
variable (s : State) (h8 : s.ilen.toNat % 8 = 0)
include h8

/-- Below ILEN the block decryption leaves the decrypted stream in OBUF (44_ecb_stream.md R167). -/
theorem readByte_decryptBlocks_lt (m : Nat) (hm : m < s.ilen.toNat) :
    readByte (decryptBlocks s) .obuf m = decryptedByte s m := by
  rw [readByte_decryptBlocks, if_pos (by omega), decryptedByte]

/-- From ILEN on the block decryption leaves OBUF as it was (44_ecb_stream.md R167). -/
theorem sameObufFrom_decryptBlocks : sameObufFrom s.ilen.toNat s (decryptBlocks s) := by
  intro a ha
  rw [readByte_decryptBlocks, if_neg (by omega)]

/-- The pad length the checks read is the last byte of the decrypted stream (44_ecb_stream.md R169). -/
theorem toNat_readByte_last (hpos : 0 < s.ilen.toNat) :
    (readByte (decryptBlocks s) .obuf (s.ilen.toNat - 1)).toNat = decryptedPad s := by
  rw [readByte_decryptBlocks_lt s h8 _ (by omega), decryptedPad]

/-- The pad bytes match exactly when the last N bytes of the decrypted stream are N (44_ecb_stream.md R170). -/
theorem padBytesMatch_decryptBlocks_iff (padN : Nat) (hpad : padN ≤ s.ilen.toNat) :
    padBytesMatch (decryptBlocks s) s.ilen.toNat padN = true ↔
      ∀ m, m < s.ilen.toNat → s.ilen.toNat - padN ≤ m → (decryptedByte s m).toNat = padN := by
  simp only [padBytesMatch, List.all_eq_true, List.mem_range, beq_iff_eq]
  constructor
  · intro h m hm hge
    have hj := h (m - (s.ilen.toNat - padN)) (by omega)
    rwa [Nat.add_sub_cancel' hge, readByte_decryptBlocks_lt s h8 m hm] at hj
  · intro h j hj
    rw [readByte_decryptBlocks_lt s h8 _ (by omega)]
    exact h _ (by omega) (by omega)

/-- The bytes the text check is applied to are the unpadded bytes of the decrypted stream (44_ecb_stream.md R171). -/
theorem bytesOf_decryptBlocks :
    bytesOf (decryptBlocks s) .obuf (s.ilen.toNat - decryptedPad s) = unpaddedBytes s := by
  refine List.map_congr_left fun m hm => readByte_decryptBlocks_lt s h8 m ?_
  exact (List.mem_range.mp hm).trans_le (Nat.sub_le _ _)

/-! ### The outcome of the checks -/

/-- Good padding leads to the text check and its two outcomes (44_ecb_stream.md R171, R172). -/
theorem unpad_of_goodPadding (hgood : goodPadding s) : unpad s.ilen.toNat (decryptBlocks s) =
    if Config.textValid (unpaddedBytes s) = true then
      complete ((decryptBlocks s).setOlen (BitVec.ofNat 32 (s.ilen.toNat - decryptedPad s)))
    else raiseError (some .decs) .decodeInvalid (decryptBlocks s) := by
  obtain ⟨hpos, hge1, hle8, hbytes⟩ := hgood
  have hmatch := (padBytesMatch_decryptBlocks_iff s h8 (decryptedPad s) (by omega)).mpr hbytes
  have hrange : ¬ (decryptedPad s = 0 ∨ 8 < decryptedPad s) := by omega
  simp only [unpad, hpos.ne', if_false, toNat_readByte_last s h8 hpos, hrange, hmatch, bytesOf_decryptBlocks s h8]
  cases Config.textValid (unpaddedBytes s) <;> rfl

/-- Without good padding one of the three padding checks fails, and each raises PaddingInvalid (44_ecb_stream.md R168 to
R170). -/
theorem unpad_of_not_goodPadding (hbad : ¬ goodPadding s) :
    unpad s.ilen.toNat (decryptBlocks s) = raiseError (some .decs) .paddingInvalid (decryptBlocks s) := by
  by_cases hzero : s.ilen.toNat = 0
  · simp only [unpad, hzero, if_true]
  · have hlast := toNat_readByte_last s h8 (by omega)
    by_cases hrange : decryptedPad s = 0 ∨ 8 < decryptedPad s
    · simp only [unpad, hzero, if_false, hlast, hrange, if_true]
    · have hmatch : padBytesMatch (decryptBlocks s) s.ilen.toNat (decryptedPad s) = false := by
        rw [Bool.eq_false_iff, Ne, padBytesMatch_decryptBlocks_iff s h8 _ (by omega)]
        exact fun hbytes => hbad ⟨by omega, by omega, by omega, hbytes⟩
      simp only [unpad, hzero, if_false, hlast, hrange, hmatch, if_true]

/-! ### What every outcome past the length check shares -/

/-- Whatever the checks say, K is KS(KEY), the decrypted stream is in OBUF, and everything but OLEN and STATUS is as before
(44_ecb_stream.md R165, R167). -/
theorem unpad_decryptBlocks_leaves (t : State) (ht : t = unpad s.ilen.toNat (decryptBlocks s)) :
    t.k = keySchedule s.key ∧ (∀ m, m < s.ilen.toNat → readByte t .obuf m = decryptedByte s m) ∧
    sameRegs (writesReg .decs) s t ∧ sameIbuf s t ∧ sameObufFrom s.ilen.toNat s t ∧ sameOutside s t ∧
    t.draws = s.draws := by
  have hframe : StreamFrame s t := ht ▸ streamFrame_unpad_decryptBlocks _ s
  obtain ⟨_, _, hunpad⟩ := unpad_frame s.ilen.toNat (decryptBlocks s)
  have hobuf : ∀ a, readByte t .obuf a = readByte (decryptBlocks s) .obuf a :=
    readByte_obuf_congr _ t (by rw [ht, hunpad]) (by rw [ht, hunpad])
  have hk : t.k = keySchedule s.key := by
    obtain ⟨_, _, _, _, _, hblocks⟩ := decryptBlocks_frame s
    rw [ht, hunpad, hblocks]
  exact ⟨hk, fun m hm => (hobuf m).trans (readByte_decryptBlocks_lt s h8 m hm), hframe.sameRegs_of (.inr rfl),
    hframe.sameIbuf_of, fun a ha => (hobuf a).trans (sameObufFrom_decryptBlocks s h8 a ha), hframe.sameOutside_of,
    hframe.draws_eq⟩

end

/-- Settles O39: each of the four clauses contradicts good padding. -/
theorem decsRejectsBadPadding : Obligations.DecsRejectsBadPadding := by
  intro s h8 hlen hbad
  have hnot : ¬ goodPadding s := by
    rintro ⟨hpos, hge1, hle8, hbytes⟩
    rcases hbad with h | h | h | ⟨m, hm, hge, hne⟩
    · omega
    · omega
    · omega
    · exact hne (hbytes m hm hge)
  have hunpad := unpad_of_not_goodPadding s h8 hnot
  exact ⟨_, execDecs_inside s h8 hlen, by rw [hunpad]; rfl, by rw [hunpad]; rfl, unpad_decryptBlocks_leaves s h8 _ rfl⟩

/-- Settles O40: with good padding the text check alone decides STATUS and OLEN. -/
theorem decsCompletesOnGoodPadding : Obligations.DecsCompletesOnGoodPadding := by
  intro s h8 hlen hgood
  refine ⟨_, execDecs_inside s h8 hlen, ?_, ?_, unpad_decryptBlocks_leaves s h8 _ rfl⟩
  · rw [unpad_of_goodPadding s h8 hgood]
    split <;> rfl
  · rw [unpad_of_goodPadding s h8 hgood]
    split
    · have hlt := s.ilen.isLt
      exact Nat.mod_eq_of_lt (by omega)
    · rfl

end Sys2Proof.Machine

/-! PROOF. Host access (spec/45_host_access.md R190 to R197): what each of the four host operations answers, stated on the
operation, and carried over to the step that takes it from the port. -/

namespace Sys2Proof.Machine

section
variable (s : State)

/-! ### The step and the input it removes -/

/-- The host operation that is due is performed on the state without it (45_host_access.md R190; log 1). -/
theorem step_op (o : HostOp) (rest : List Input) (h : s.port = .op o :: rest) : step s = hostOp o (s.setPort rest) :=
  step_input s _ rest h

@[simp] theorem readReg_setPort (p : List Input) (reg : Reg) : readReg (s.setPort p) reg = readReg s reg := by
  cases reg <;> rfl

@[simp] theorem readByte_setPort (p : List Input) (b : Buf) (a : Nat) : readByte (s.setPort p) b a = readByte s b a := by
  cases b <;> rfl

/-! ### Buffer bytes -/

theorem hostReadByte_inside (b : Buf) (a : Nat) (h : a < bufSize b) :
    hostReadByte b a s = .next (s.addReply (.byte b a (readByte s b a))) := if_pos h

theorem hostReadByte_outside (b : Buf) (a : Nat) (h : bufSize b ≤ a) :
    hostReadByte b a s = .refused (.offsetOutOfRange b a) := if_neg (Nat.not_lt.mpr h)

theorem hostWriteByte_inside (a : Nat) (b : Byte) (h : a < Config.maxLen) : hostWriteByte a b s = .next (writeIbuf s a b) :=
  if_pos h

theorem hostWriteByte_outside (a : Nat) (b : Byte) (h : Config.maxLen ≤ a) :
    hostWriteByte a b s = .refused (.offsetOutOfRange .ibuf a) := if_neg (Nat.not_lt.mpr h)

/-! ### Register numbers -/

/-- No register has a number from 0x07 to 0x0F or from 0x20 on (10_state.md R27). -/
theorem regOfNumber_reserved (num : Nat) (h : 0x07 ≤ num ∧ num ≤ 0x0F ∨ 0x20 ≤ num) : regOfNumber num = none := by
  rw [Option.eq_none_iff_forall_ne_some]
  intro reg hreg
  have hnum := regNumber_of_regOfNumber num reg hreg
  cases reg <;> simp only [regNumber] at hnum <;> omega

/-- The numbers 0x10 to 0x1F are those of K[0] to K[15] (10_state.md R27). -/
theorem exists_regNumber_k (num : Nat) (hlo : 0x10 ≤ num) (hhi : num < 0x20) : ∃ i, num = regNumber (.k i) :=
  ⟨⟨num - 0x10, by omega⟩, by simp only [regNumber]; omega⟩

/-! ### Reading a register -/

/-- RD of a register's number hands its value to the host (45_host_access.md R191). -/
theorem hostRead_regNumber (reg : Reg) : hostRead (regNumber reg) s = .next (s.addReply (.reg reg (readReg s reg))) := by
  rw [hostRead, regOfNumber_regNumber]

theorem hostRead_of_regOfNumber_none (num : Nat) (h : regOfNumber num = none) :
    hostRead num s = .refused (.reservedRegister num) := by
  rw [hostRead, h]

/-- Every row of the reference table of reads lists a register with its number and the value `readReg` gives. -/
theorem registerReads_rows : ∀ row ∈ registerReads s, row.1 = regNumber row.2.1 ∧ row.2.2 = readReg s row.2.1 := by
  simp only [registerReads, List.forall_mem_append, List.forall_mem_cons, List.forall_mem_map]
  refine ⟨?_, fun i _ => ⟨rfl, rfl⟩⟩
  simp [regNumber, readReg]

/-! ### Writing a register -/

/-- WR of a value of the register's width to a register's number writes that register (45_host_access.md R192). -/
theorem hostWrite_regNumber (reg : Reg) (v : BitVec 64) (h : v.toNat < 2 ^ regWidth reg) :
    hostWrite (regNumber reg) v s = writeReg reg v s := by
  have hfits : fitsReg reg v = true := decide_eq_true h
  rw [hostWrite, regOfNumber_regNumber]
  exact if_pos hfits

theorem hostWrite_of_regOfNumber_none (num : Nat) (v : BitVec 64) (h : regOfNumber num = none) :
    hostWrite num v s = .refused (.reservedRegister num) := by
  rw [hostWrite, h]

/-- MAXLEN fits ILEN, so a value up to it is one of ILEN's width (00_scope.md R6). -/
theorem hostWrite_ilen_inside (v : BitVec 64) (h : v.toNat ≤ Config.maxLen) :
    hostWrite 0x05 v s = .next (s.setIlen (v.setWidth 32)) := by
  have hmax := Config.maxLen_range
  calc hostWrite 0x05 v s = writeReg .ilen v s := hostWrite_regNumber s .ilen v (by simp only [regWidth]; omega)
    _ = _ := if_pos h

/-- A value above MAXLEN is refused by ILEN, or before that as wider than ILEN (45_host_access.md R197; log 11). -/
theorem hostWrite_ilen_above (v : BitVec 64) (h : Config.maxLen < v.toNat) : ∃ reason, hostWrite 0x05 v s = .refused reason := by
  by_cases hfits : fitsReg .ilen v = true
  · have hwrite : hostWrite 0x05 v s = writeReg .ilen v s := if_pos hfits
    exact ⟨_, hwrite.trans (if_neg (Nat.not_le.mpr h))⟩
  · exact ⟨_, if_neg hfits⟩

/-- Writing a read-only register does nothing (45_host_access.md R196). -/
theorem writeReg_readOnly (reg : Reg) (v : BitVec 64) (h : reg = .status ∨ reg = .dout ∨ reg = .olen ∨ ∃ i, reg = .k i) :
    writeReg reg v s = .next s := by
  obtain rfl | rfl | rfl | ⟨i, rfl⟩ := h <;> rfl

end

/-! ### The statements -/

/-- Settles O11: the new cells are `Memory.write` of the old ones, and `readByte_writeIbuf` says how they read. -/
theorem writeBufferByteWritesOneByte : Obligations.WriteBufferByteWritesOneByte := by
  intro s rest a b hport
  rw [step_op s _ rest hport]
  refine ⟨fun ha => ⟨Memory.write s.ibuf a b, hostWriteByte_inside _ a b ha, fun x => ?_⟩,
    fun ha => ⟨_, hostWriteByte_outside _ a b ha⟩⟩
  exact readByte_writeIbuf (s.setPort rest) a b x

/-- Settles O10: an offset is inside the buffer or refused, and the input removed is no part of a buffer. -/
theorem readBufferByteReturnsIt : Obligations.ReadBufferByteReturnsIt := by
  intro s rest b a hport
  have hinside : a < bufSize b → step s = .next { s with port := rest, replies := .byte b a (readByte s b a) :: s.replies } := by
    intro ha
    rw [step_op s _ rest hport, ← readByte_setPort s rest]
    exact hostReadByte_inside _ b a ha
  have houtside : bufSize b ≤ a → ∃ reason, step s = .refused reason := by
    intro ha
    rw [step_op s _ rest hport]
    exact ⟨_, hostReadByte_outside _ b a ha⟩
  cases b with
  | ibuf => exact ⟨hinside, houtside⟩
  | obuf => exact ⟨hinside, houtside⟩

/-- Settles O6: each row of `registerReads` gives the register its number selects and that register's value. -/
theorem readRegisterReturnsItsValue : Obligations.ReadRegisterReturnsItsValue := by
  intro s rest num reg v hrow hport
  obtain ⟨hnum, hv⟩ : num = regNumber reg ∧ v = readReg s reg := registerReads_rows s _ hrow
  subst hnum hv
  rw [step_op s _ rest hport, ← readReg_setPort s rest]
  exact hostRead_regNumber _ reg

/-- Settles O8: the write fits the register and `writeReg` leaves the state; CMD reads as 0. -/
theorem readOnlyWritesAreIgnored : Obligations.ReadOnlyWritesAreIgnored := by
  intro s rest reg
  constructor
  · intro v hreg hv hport
    calc step s = hostWrite (regNumber reg) v (s.setPort rest) := step_op s _ rest hport
      _ = writeReg reg v (s.setPort rest) := hostWrite_regNumber _ reg v hv
      _ = .next (s.setPort rest) := writeReg_readOnly _ reg v hreg
  · intro hport
    exact (step_op s _ rest hport).trans (hostRead_regNumber _ .cmd)

/-- Settles O7: one register for each clause; the read-only registers are those of O8. -/
theorem writeRegisterByNumber : Obligations.WriteRegisterByNumber := by
  intro s rest num v hport
  have hstep : step s = hostWrite num v (s.setPort rest) := step_op s _ rest hport
  have hreadOnly : ∀ reg, num = regNumber reg → (reg = .status ∨ reg = .dout ∨ reg = .olen ∨ ∃ i, reg = .k i) →
      v.toNat < 2 ^ regWidth reg → step s = .next { s with port := rest } := by
    rintro reg rfl hreg hv
    exact (readOnlyWritesAreIgnored s rest reg).1 v hreg hv hport
  refine ⟨?key, ?din, ?ilen, ?ilenAbove, ?cmd, ?readOnly⟩
  case key => rintro rfl; exact hstep.trans (hostWrite_regNumber _ .key v v.isLt)
  case din => rintro rfl; exact hstep.trans (hostWrite_regNumber _ .din v v.isLt)
  case ilen => rintro rfl hv; exact hstep.trans (hostWrite_ilen_inside _ v hv)
  case ilenAbove => rintro rfl hv; rw [hstep]; exact hostWrite_ilen_above _ v hv
  case cmd =>
    rintro rfl hv
    have hrun : step s = runCommand (v.setWidth 8) (s.setPort rest) := hstep.trans (hostWrite_regNumber _ .cmd v hv)
    rw [hrun]
    obtain ⟨i, hdecode, hi⟩ | ⟨hdecode, hillegal⟩ := runCommand_cases (v.setWidth 8) (s.setPort rest)
    · rw [hi, hdecode]; rfl
    · rw [hillegal, hdecode]; rfl
  case readOnly =>
    rintro (⟨hnum, hv⟩ | hnum | ⟨hnum, hv⟩ | ⟨hlo, hhi, hv⟩)
    · exact hreadOnly .status hnum (.inl rfl) hv
    · exact hreadOnly .dout hnum (.inr (.inl rfl)) v.isLt
    · exact hreadOnly .olen hnum (.inr (.inr (.inl rfl))) hv
    · obtain ⟨i, hnum⟩ := exists_regNumber_k num hlo hhi
      exact hreadOnly (.k i) hnum (.inr (.inr (.inr ⟨i, rfl⟩))) hv

/-- Settles O9: each operation is refused by its own check, whatever state it finds. -/
theorem undefinedAccessesAreRefused : Obligations.UndefinedAccessesAreRefused := by
  intro s rest o hport ho
  rw [step_op s o rest hport]
  obtain ⟨num, hnum, rfl | ⟨v, rfl⟩⟩ | ⟨a, ha, rfl | ⟨b, rfl⟩⟩ | ⟨a, ha, rfl⟩ | ⟨v, hv, rfl⟩ := ho
  · exact ⟨_, hostRead_of_regOfNumber_none _ num (regOfNumber_reserved num hnum)⟩
  · exact ⟨_, hostWrite_of_regOfNumber_none _ num v (regOfNumber_reserved num hnum)⟩
  · exact ⟨_, hostReadByte_outside _ .ibuf a ha⟩
  · exact ⟨_, hostWriteByte_outside _ a b ha⟩
  · exact ⟨_, hostReadByte_outside _ .obuf a ha⟩
  · exact hostWrite_ilen_above _ v hv

end Sys2Proof.Machine

/-! PROOF. The six command words (spec/30_encoding.md R60, R61, R64): a word decodes to a command exactly when it is the word
the command's fields form, and the step on WR CMD of that word runs the command (spec/45_host_access.md R193). -/

namespace Sys2Proof

/-- A word decodes to a command when its row of the opcode map is the first that matches. -/
theorem decode_eq_command_iff_exists (v : Byte) (i : Instr) :
    decode v = .command i ↔ ∃ row, opcodeMap.find? (rowMatches v) = some row ∧ row.instr = i := by
  unfold decode
  cases opcodeMap.find? (rowMatches v) <;> simp

/-- Every row of the opcode map lists the word its command's fields form (30_encoding.md R61). -/
theorem pattern_eq_encode_of_mem_opcodeMap : ∀ row ∈ opcodeMap, row.pattern = encode row.instr := by decide

/-- The words that decode to a command are the command words: one for each (30_encoding.md R61, R64). -/
theorem decode_eq_command_iff (v : Byte) (i : Instr) : decode v = .command i ↔ v = encode i := by
  constructor
  · intro h
    obtain ⟨row, hfind, rfl⟩ := (decode_eq_command_iff_exists v i).mp h
    have hrow := List.mem_of_find?_eq_some hfind
    rw [← pattern_eq_encode_of_mem_opcodeMap row hrow]
    exact (rowMatches_iff_of_mem_opcodeMap hrow v).mp (List.find?_some hfind)
  · rintro rfl
    cases i <;> rfl

/-- Settles O2: the command word of an instruction is the one word that decodes to it, and its upper nibble is ZERO. -/
theorem decodeOfEncodeIsTheInstruction : Obligations.DecodeOfEncodeIsTheInstruction := by
  intro i _
  exact ⟨(decode_eq_command_iff _ i).mpr rfl, by cases i <;> rfl⟩

/-- Settles O1: the six words are the command words, and any other word is no pattern of the opcode map. -/
theorem decodeComparesWithTheSixWords : Obligations.DecodeComparesWithTheSixWords := by
  intro v
  split_ifs with h1 h2 h4 h5 h6 h7
  · exact (decode_eq_command_iff v .genkey).mpr h1
  · exact (decode_eq_command_iff v .keyexp).mpr h2
  · exact (decode_eq_command_iff v .encb).mpr h4
  · exact (decode_eq_command_iff v .decb).mpr h5
  · exact (decode_eq_command_iff v .encs).mpr h6
  · exact (decode_eq_command_iff v .decs).mpr h7
  · have hnone : v ∉ opcodeMap.map OpRow.pattern := by simp [opcodeMap, h1, h2, h4, h5, h6, h7]
    exact (decode_eq_illegal_iff v).mpr hnone

namespace Machine

/-- A write of a command's word to CMD runs the command (45_host_access.md R193). -/
theorem runCommand_of_decode (v : Byte) (i : Instr) (s : State) (h : decode v = .command i) : runCommand v s = exec i s := by
  rw [runCommand, h]

/-- Settles O4: the step dispatches the word, and the word is the command's. -/
theorem stepRunsTheDecodedCommand : Obligations.StepRunsTheDecodedCommand := by
  intro s rest v i hport hdecode _
  exact (step_wr_cmd s rest v hport).trans (runCommand_of_decode v i _ hdecode)

/-- A table word gives the command its one byte decodes to (30_encoding.md R60; log 21). -/
theorem decode_of_decodeTableWord (nbits w : Nat) (i : Instr) (h : decodeTableWord nbits w = some i) :
    decode (tableWordByte nbits w) = .command i := by
  unfold decodeTableWord at h
  cases hdecode : decode (tableWordByte nbits w) with
  | command j => rw [hdecode] at h; cases h; rfl
  | illegal v => rw [hdecode] at h; cases h

/-- Settles O5: the word placed in front of the port is the input that the step removes again. -/
theorem fetchWordRunsNext : Obligations.FetchWordRunsNext := by
  intro s nbits w i h
  have hstep := step_wr_cmd (s.withFetchWord nbits w) s.port (tableWordByte nbits w) rfl
  exact hstep.trans (runCommand_of_decode _ i _ (decode_of_decodeTableWord nbits w i h))

end Machine

end Sys2Proof

/-! PROOF. What one step can do (spec/45_host_access.md R190 to R197, spec/70_reset_and_hazards.md R240): the steps to a next
state sorted by the input performed and what it writes. The rules over all steps follow case by case. -/

namespace Sys2Proof.Machine

/-- What a step from `s` can be, and the state it leads to. Every constructor but `idle` names the input performed. -/
inductive StepEffect (s : State) : State → Prop where
  /-- No input is pending (60_exceptions.md R224). -/
  | idle : StepEffect s s
  /-- The reset input (70_reset_and_hazards.md R241). -/
  | reset (rest : List Input) (hport : s.port = .reset :: rest) : StepEffect s (assertReset (s.setPort rest))
  /-- RD or RDB: a reply and nothing else (45_host_access.md R191, R194). -/
  | read (rest : List Input) (reply : Reply) : StepEffect s ((s.setPort rest).addReply reply)
  /-- WR of a read-only register (45_host_access.md R196). -/
  | ignored (rest : List Input) : StepEffect s (s.setPort rest)
  /-- WR KEY (45_host_access.md R192). -/
  | key (rest : List Input) (v : Key) (hport : s.port = .op (.wr 0x02 v) :: rest) : StepEffect s ((s.setPort rest).setKey v)
  /-- WR DIN (45_host_access.md R192). -/
  | din (rest : List Input) (v : Block) (hport : s.port = .op (.wr 0x03 v) :: rest) :
      StepEffect s ((s.setPort rest).setDin v)
  /-- WR ILEN up to MAXLEN (45_host_access.md R192). -/
  | ilen (rest : List Input) (v : BitVec 64) (hport : s.port = .op (.wr 0x05 v) :: rest) (hv : v.toNat ≤ Config.maxLen) :
      StepEffect s ((s.setPort rest).setIlen (v.setWidth 32))
  /-- WRB inside IBUF (45_host_access.md R195). -/
  | ibuf (rest : List Input) (a : Nat) (b : Byte) (hport : s.port = .op (.wrb a b) :: rest) (ha : a < Config.maxLen) :
      StepEffect s (writeIbuf (s.setPort rest) a b)
  /-- WR CMD of a word that is no command (60_exceptions.md R215). -/
  | illegal (rest : List Input) : StepEffect s ((s.setPort rest).setStatus 0x04#8)
  /-- WR CMD of a command word: the command completes (45_host_access.md R193). -/
  | command (rest : List Input) (i : Instr) (t : State) (hport : s.port = .op (.wr 0x00 ((encode i).setWidth 64)) :: rest)
      (hexec : exec i (s.setPort rest) = .next t) : StepEffect s t

/-- A value that fits CMD is a byte. -/
theorem setWidth_setWidth_of_fitsReg_cmd (v : BitVec 64) (h : fitsReg .cmd v = true) : (v.setWidth 8).setWidth 64 = v := by
  have hv : v.toNat < 2 ^ 8 := of_decide_eq_true h
  apply BitVec.eq_of_toNat_eq
  rw [BitVec.toNat_setWidth, BitVec.toNat_setWidth]
  omega

/-- A WR that completes writes a value of the width of the register its number selects (45_host_access.md R192). -/
theorem exists_writeReg_of_hostWrite_next (num : Nat) (v : BitVec 64) (s t : State) (h : hostWrite num v s = .next t) :
    ∃ reg, num = regNumber reg ∧ fitsReg reg v = true ∧ writeReg reg v s = .next t := by
  unfold hostWrite at h
  cases hnum : regOfNumber num with
  | none => rw [hnum] at h; cases h
  | some reg =>
    simp only [hnum] at h
    split at h
    · exact ⟨reg, regNumber_of_regOfNumber num reg hnum, ‹_›, h⟩
    · cases h

section
variable {s t : State} {rest : List Input}

/-- What WR can be (45_host_access.md R192). -/
theorem stepEffect_of_hostWrite (num : Nat) (v : BitVec 64) (hport : s.port = .op (.wr num v) :: rest)
    (h : hostWrite num v (s.setPort rest) = .next t) : StepEffect s t := by
  obtain ⟨reg, rfl, hfits, hwrite⟩ := exists_writeReg_of_hostWrite_next num v _ t h
  cases reg with
  | cmd =>
    obtain ⟨i, hdecode, hrun⟩ | ⟨-, hrun⟩ := runCommand_cases (v.setWidth 8) (s.setPort rest)
    · have hv := setWidth_setWidth_of_fitsReg_cmd v hfits
      rw [(decode_eq_command_iff _ i).mp hdecode] at hv
      exact .command rest i t (hv ▸ hport) (hrun.symm.trans hwrite)
    · cases hrun.symm.trans hwrite
      exact .illegal rest
  | key => cases hwrite; exact .key rest v hport
  | din => cases hwrite; exact .din rest v hport
  | ilen =>
    simp only [writeReg] at hwrite
    split at hwrite
    · cases hwrite; exact .ilen rest v hport ‹_›
    · cases hwrite
  | status | dout | olen | k _ => cases hwrite; exact .ignored rest

/-- What a host operation can be (45_host_access.md R190). -/
theorem stepEffect_of_hostOp (o : HostOp) (hport : s.port = .op o :: rest) (h : hostOp o (s.setPort rest) = .next t) :
    StepEffect s t := by
  cases o with
  | rd num =>
    obtain ⟨reg, -, hread⟩ | ⟨-, hread⟩ := hostRead_cases num (s.setPort rest)
    · cases hread.symm.trans h; exact .read rest _
    · cases hread.symm.trans h
  | wr num v => exact stepEffect_of_hostWrite num v hport h
  | rdb b a =>
    by_cases ha : a < bufSize b
    · cases (hostReadByte_inside _ b a ha).symm.trans h; exact .read rest _
    · cases (hostReadByte_outside _ b a (not_lt.mp ha)).symm.trans h
  | wrb a b =>
    by_cases ha : a < Config.maxLen
    · cases (hostWriteByte_inside _ a b ha).symm.trans h; exact .ibuf rest a b hport ha
    · cases (hostWriteByte_outside _ a b (not_lt.mp ha)).symm.trans h

end

/-- Every step to a next state is one of these. -/
theorem stepEffect_of_step {s t : State} (h : step s = .next t) : StepEffect s t := by
  obtain ⟨-, rfl⟩ | ⟨i, rest, hport, ⟨rfl, rfl⟩ | ⟨o, rfl, hop⟩⟩ := step_cases s t h
  · exact .idle
  · exact .reset rest hport
  · exact stepEffect_of_hostOp o hport hop

end Sys2Proof.Machine

/-! PROOF. The permutation network (spec/41_permutation.md R102, R105): `permute` is linear because each bit of its result is
one bit of its argument, and two tables that undo each other position by position give functions that undo each other. -/

namespace Sys2Proof.Machine

/-! ### Values by DES positions -/

/-- Two values with the same bit at every DES position are equal (00_scope.md R8). -/
theorem eq_of_pos_eq {w : Nat} (x y : BitVec w) (h : ∀ m, 1 ≤ m → m ≤ w → pos x m = pos y m) : x = y := by
  apply BitVec.eq_of_getLsbD_eq
  intro i hi
  have hpos := h (w - i) (by omega) (by omega)
  have hbit : w - (w - i) = i := by omega
  rwa [pos, pos, hbit] at hpos

@[simp] theorem pos_xor {w : Nat} (x y : BitVec w) (p : Nat) : pos (x ^^^ y) p = (pos x p ^^ pos y p) :=
  BitVec.getLsbD_xor

@[simp] theorem pos_zero (w p : Nat) : pos (0#w) p = false := BitVec.getLsbD_zero

theorem pos_allOnes (w p : Nat) (h1 : 1 ≤ p) (hp : p ≤ w) : pos (BitVec.allOnes w) p = true := by
  rw [pos, BitVec.getLsbD_allOnes, decide_eq_true (by omega)]

/-- The entry a table has for an output position is one of its entries. -/
theorem getD_mem_of_position (table : List Nat) (m : Nat) (h1 : 1 ≤ m) (hm : m ≤ table.length) :
    table.getD (m - 1) 0 ∈ table := by
  rw [List.getD_eq_getElem _ _ (by omega)]
  exact List.getElem_mem _

/-! ### Linearity -/

section
variable {w n : Nat} {table : List Nat} (hn : table.length = n)
include hn

theorem permute_xor (x y : BitVec w) : permute n table (x ^^^ y) = permute n table x ^^^ permute n table y := by
  apply eq_of_pos_eq
  intro m h1 hm
  simp only [pos_xor, pos_permute n table _ hn m h1 hm]

theorem permute_zero : permute n table (0#w) = 0#n := by
  apply eq_of_pos_eq
  intro m h1 hm
  simp only [pos_zero, pos_permute n table _ hn m h1 hm]

theorem permute_allOnes (hrange : ∀ p ∈ table, 1 ≤ p ∧ p ≤ w) :
    permute n table (BitVec.allOnes w) = BitVec.allOnes n := by
  apply eq_of_pos_eq
  intro m h1 hm
  obtain ⟨hlo, hhi⟩ := hrange _ (getD_mem_of_position table m h1 (hm.trans_eq hn.symm))
  rw [pos_permute n table _ hn m h1 hm, pos_allOnes w _ hlo hhi, pos_allOnes n m h1 hm]

/-- Complementing is exclusive-or with all ones, so a permutation commutes with it (41_permutation.md R102). -/
theorem permute_not (hrange : ∀ p ∈ table, 1 ≤ p ∧ p ≤ w) (x : BitVec w) :
    permute n table (~~~x) = ~~~(permute n table x) := by
  rw [← BitVec.xor_allOnes, permute_xor hn, permute_allOnes hn hrange, BitVec.xor_allOnes]

end

/-- Settles O16: the tables' entries are in range, and each bit of `permute` is one bit of its argument. -/
theorem permuteIsLinear : Obligations.PermuteIsLinear :=
  ⟨table_entries_in_range, fun _ _ a b => ⟨permute_xor rfl a b, permute_zero rfl, permute_allOnes rfl⟩⟩

/-! ### IP and its inverse -/

/-- When `inner` at the positions `outer` names gives the positions in turn, selecting by `inner` and then by `outer` changes
nothing. -/
theorem permute_permute_eq_self {n : Nat} {inner outer : List Nat} (hinner : inner.length = n) (houter : outer.length = n)
    (hrange : ∀ p ∈ outer, 1 ≤ p ∧ p ≤ n)
    (hinv : ∀ m, 1 ≤ m → m ≤ n → inner.getD (outer.getD (m - 1) 0 - 1) 0 = m) (x : BitVec n) :
    permute n outer (permute n inner x) = x := by
  apply eq_of_pos_eq
  intro m h1 hm
  obtain ⟨hlo, hhi⟩ := hrange _ (getD_mem_of_position outer m h1 (hm.trans_eq houter.symm))
  rw [pos_permute n outer _ houter m h1 hm, pos_permute n inner _ hinner _ hlo hhi, hinv m h1 hm]

/-- IP^-1 and IP undo each other entry by entry (41_permutation.md R105). -/
theorem fpTable_inverts_ipTable (m : Nat) (h1 : 1 ≤ m) (hm : m ≤ 64) :
    fpTable.getD (ipTable.getD (m - 1) 0 - 1) 0 = m ∧ ipTable.getD (fpTable.getD (m - 1) 0 - 1) 0 = m := by
  interval_cases m <;> decide

theorem finalPermutation_initialPermutation (x : Block) : finalPermutation (initialPermutation x) = x := by
  obtain ⟨-, -, hip, hfp, -⟩ := table_lengths
  obtain ⟨-, -, -, hrange, -⟩ := table_entries_in_range
  exact permute_permute_eq_self hip hfp hrange (fun m h1 hm => (fpTable_inverts_ipTable m h1 hm).2) x

theorem initialPermutation_finalPermutation (x : Block) : initialPermutation (finalPermutation x) = x := by
  obtain ⟨-, -, hip, hfp, -⟩ := table_lengths
  obtain ⟨-, -, hrange, -⟩ := table_entries_in_range
  exact permute_permute_eq_self hfp hip hrange (fun m h1 hm => (fpTable_inverts_ipTable m h1 hm).1) x

/-- Settles O17: the two tables undo each other entry by entry, so the two functions do. -/
theorem finalPermutationInvertsInitial : Obligations.FinalPermutationInvertsInitial :=
  ⟨fun x => ⟨finalPermutation_initialPermutation x, initialPermutation_finalPermutation x⟩, fpTable_inverts_ipTable⟩

end Sys2Proof.Machine


/-! PROOF. The key bits that matter (spec/40_key_schedule.md R85, R88, R90): sixteen rotations are a rotation by 28, so the
halves return to the start; PC-1 selects the used bits of KEY, and the subkeys K[15] and K[0] together hold every bit of
C_0 and D_0. -/

namespace Sys2Proof.Machine

/-! ### Rotations by DES positions -/

/-- Position p of a rotation by n is position p + n, wrapped within 1..28 (40_key_schedule.md R84). -/
theorem pos_rotl28 (x : KeyHalf) (n p : Nat) (hn : n < 28) (h1 : 1 ≤ p) (hp : p ≤ 28) :
    pos (rotl28 x n) p = pos x ((p - 1 + n) % 28 + 1) := by
  rw [pos, pos, getLsbD_rotl28 x n _ hn (by omega)]
  split <;> congr 1 <;> omega

/-- Rotations one after the other add up (40_key_schedule.md R85). -/
theorem pos_foldl_rotl28 (rots : List Nat) (hrots : ∀ n ∈ rots, n < 28) (x : KeyHalf) (p : Nat) (h1 : 1 ≤ p) (hp : p ≤ 28) :
    pos (rots.foldl rotl28 x) p = pos x ((p - 1 + rots.sum) % 28 + 1) := by
  induction rots generalizing x with
  | nil => congr 1; simp only [List.sum_nil]; omega
  | cons n rest ih =>
    obtain ⟨hn, hrest⟩ := List.forall_mem_cons.mp hrots
    rw [List.foldl_cons, ih hrest, pos_rotl28 x n _ hn (by omega) (by omega), List.sum_cons]
    congr 1
    omega

/-- C and D are rotated independently (40_key_schedule.md R85). -/
theorem foldl_rotateHalves (rots : List Nat) (cd : KeyHalf × KeyHalf) :
    rots.foldl rotateHalves cd = (rots.foldl rotl28 cd.1, rots.foldl rotl28 cd.2) := by
  induction rots generalizing cd with
  | nil => rfl
  | cons n rest ih => exact ih (rotateHalves cd n)

/-- Every rotation of the schedule is less than a whole turn (40_key_schedule.md R83). -/
theorem rotTable_lt : ∀ n ∈ rotTable, n < 28 := by decide

/-- The sixteen rotations of the schedule are one whole turn (40_key_schedule.md R90). -/
theorem foldl_rotl28_rotTable (x : KeyHalf) : rotTable.foldl rotl28 x = x := by
  apply eq_of_pos_eq
  intro p h1 hp
  have hsum : rotTable.sum = 28 := by decide
  rw [pos_foldl_rotl28 rotTable rotTable_lt x p h1 hp, hsum]
  congr 1
  omega

/-- C_16 = C_0 and D_16 = D_0 (40_key_schedule.md R90). -/
theorem finalKeyHalves_eq_initialKeyHalves (key : Key) : finalKeyHalves key = initialKeyHalves key := by
  rw [finalKeyHalves, foldl_rotateHalves, foldl_rotl28_rotTable, foldl_rotl28_rotTable]

theorem halvesAfter_sixteen (key : Key) : halvesAfter key 16 = initialKeyHalves key :=
  finalKeyHalves_eq_initialKeyHalves key

/-! ### Constant halves -/

/-- Halves that no rotation of the schedule changes are the halves of every round (40_key_schedule.md R90). -/
theorem halvesAfter_of_fixed (key : Key)
    (hfixed : ∀ n ∈ rotTable, rotateHalves (initialKeyHalves key) n = initialKeyHalves key) (i : Nat) :
    halvesAfter key i = initialKeyHalves key := by
  have hfold : ∀ rots ⊆ rotTable, rots.foldl rotateHalves (initialKeyHalves key) = initialKeyHalves key := by
    intro rots hrots
    induction rots with
    | nil => rfl
    | cons n rest ih =>
      rw [List.cons_subset] at hrots
      rw [List.foldl_cons, hfixed n hrots.1, ih hrots.2]
  exact hfold _ (List.take_subset i rotTable)

/-- A half that is all zero or all one has the same bit everywhere, so a rotation does not change it. -/
theorem rotl28_constant (x : KeyHalf) (hx : x ∈ [0#28, BitVec.allOnes 28]) (n : Nat) (hn : n < 28) : rotl28 x n = x := by
  apply eq_of_pos_eq
  intro p h1 hp
  rw [pos_rotl28 x n p hn h1 hp]
  rcases List.mem_pair.mp hx with rfl | rfl
  · rw [pos_zero, pos_zero]
  · rw [pos_allOnes _ _ (by omega) (by omega), pos_allOnes _ _ h1 hp]

section
variable (key : Key) (hc : (initialKeyHalves key).1 ∈ [0#28, BitVec.allOnes 28])
  (hd : (initialKeyHalves key).2 ∈ [0#28, BitVec.allOnes 28])
include hc hd

/-- With constant halves every subkey is PC-2 of C_0 || D_0 (40_key_schedule.md R90). -/
theorem getElem_keySchedule_of_constant (i : Nat) (h : i < 16) :
    (keySchedule key)[i] = subkeyOfHalves (initialKeyHalves key) := by
  have hfixed : ∀ n ∈ rotTable, rotateHalves (initialKeyHalves key) n = initialKeyHalves key := fun n hn =>
    Prod.ext (rotl28_constant _ hc n (rotTable_lt n hn)) (rotl28_constant _ hd n (rotTable_lt n hn))
  rw [getElem_keySchedule key i h, halvesAfter_of_fixed key hfixed]

/-- With constant halves the sixteen subkeys are equal (40_key_schedule.md R90). -/
theorem keySchedule_constant (i : Fin 16) : (keySchedule key)[i] = (keySchedule key)[0] :=
  (getElem_keySchedule_of_constant key hc hd i i.isLt).trans (getElem_keySchedule_of_constant key hc hd 0 (by omega)).symm

end

theorem allOnes_28 : BitVec.allOnes 28 = 0xFFFFFFF#28 := by decide

/-- The halves of the four weak keys (40_key_schedule.md R90). -/
theorem initialKeyHalves_weak_keys :
    initialKeyHalves 0x0101010101010101#64 = (0#28, 0#28) ∧
    initialKeyHalves 0xFEFEFEFEFEFEFEFE#64 = (BitVec.allOnes 28, BitVec.allOnes 28) ∧
    initialKeyHalves 0x1F1F1F1F0E0E0E0E#64 = (0#28, BitVec.allOnes 28) ∧
    initialKeyHalves 0xE0E0E0E0F1F1F1F1#64 = (BitVec.allOnes 28, 0#28) := by
  rw [allOnes_28]
  decide +kernel

/-- The four weak keys have constant halves (40_key_schedule.md R90). -/
theorem constant_halves_of_weak_key (key : Key)
    (hkey : key ∈ [0x0101010101010101#64, 0xFEFEFEFEFEFEFEFE#64, 0x1F1F1F1F0E0E0E0E#64, 0xE0E0E0E0F1F1F1F1#64]) :
    (initialKeyHalves key).1 ∈ [0#28, BitVec.allOnes 28] ∧ (initialKeyHalves key).2 ∈ [0#28, BitVec.allOnes 28] := by
  obtain ⟨h1, h2, h3, h4⟩ := initialKeyHalves_weak_keys
  simp only [List.mem_cons, List.not_mem_nil, or_false] at hkey
  rcases hkey with rfl | rfl | rfl | rfl
  · simp [h1]
  · simp [h2]
  · simp [h3]
  · simp [h4]

theorem initialKeyHalves_zero : initialKeyHalves 0#64 = (0#28, 0#28) := by decide +kernel

theorem initialKeyHalves_allOnes : initialKeyHalves (BitVec.allOnes 64) = (BitVec.allOnes 28, BitVec.allOnes 28) := by
  rw [initialKeyHalves, permute_allOnes table_lengths.1 table_entries_in_range.1]
  decide +kernel

theorem subkeyOfHalves_zero : subkeyOfHalves (0#28, 0#28) = 0#48 := by
  have happend : (0#28 ++ 0#28 : BitVec 56) = 0#56 := by decide
  exact (congrArg (permute 48 pc2Table) happend).trans (permute_zero table_lengths.2.1)

theorem subkeyOfHalves_allOnes : subkeyOfHalves (BitVec.allOnes 28, BitVec.allOnes 28) = BitVec.allOnes 48 := by
  have happend : (BitVec.allOnes 28 ++ BitVec.allOnes 28 : BitVec 56) = BitVec.allOnes 56 := by decide
  exact (congrArg (permute 48 pc2Table) happend).trans (permute_allOnes table_lengths.2.1 table_entries_in_range.2.1)

/-- The all-zero key has all-zero subkeys (40_key_schedule.md R90). -/
theorem keySchedule_zero (i : Fin 16) : (keySchedule 0#64)[i] = 0#48 := by
  have hhalves := initialKeyHalves_zero
  have hconstant := getElem_keySchedule_of_constant 0#64 (by rw [hhalves]; exact List.mem_cons_self)
    (by rw [hhalves]; exact List.mem_cons_self) i i.isLt
  rw [Fin.getElem_fin, hconstant, hhalves, subkeyOfHalves_zero]

/-- The all-one key has all-one subkeys (40_key_schedule.md R90). -/
theorem keySchedule_allOnes (i : Fin 16) : (keySchedule (BitVec.allOnes 64))[i] = BitVec.allOnes 48 := by
  have hhalves := initialKeyHalves_allOnes
  have hconstant := getElem_keySchedule_of_constant (BitVec.allOnes 64)
    (by rw [hhalves]; exact List.mem_cons_of_mem _ List.mem_cons_self)
    (by rw [hhalves]; exact List.mem_cons_of_mem _ List.mem_cons_self) i i.isLt
  rw [Fin.getElem_fin, hconstant, hhalves, subkeyOfHalves_allOnes]

/-! ### The used bits of KEY -/

/-- A key bit has the DES position that counts from the other end; it is the lowest of its byte when the position is a
multiple of 8 (40_key_schedule.md R88). -/
theorem sameUsedBits_iff_pos (key key' : Key) :
    sameUsedBits key key' ↔ ∀ p, 1 ≤ p → p ≤ 64 → p % 8 ≠ 0 → pos key p = pos key' p := by
  constructor
  · intro h p h1 hp hp8
    exact h (64 - p) (by omega) (by omega)
  · intro h j hj hj8
    have hpos := h (64 - j) (by omega) (by omega) (by omega)
    have hbit : 64 - (64 - j) = j := by omega
    rwa [pos, pos, hbit] at hpos

/-- PC-1 selects the positions that are no multiple of 8 (40_key_schedule.md R81, R88). -/
theorem mem_pc1Table_iff (p : Nat) : p ∈ pc1Table ↔ (1 ≤ p ∧ p ≤ 64) ∧ p % 8 ≠ 0 := by
  have hselected : ∀ p < 65, 1 ≤ p → p % 8 ≠ 0 → p ∈ pc1Table := by decide
  have hsound : ∀ p ∈ pc1Table, (1 ≤ p ∧ p ≤ 64) ∧ p % 8 ≠ 0 := by decide
  exact ⟨hsound p, fun ⟨⟨h1, hp⟩, hp8⟩ => hselected p (by omega) h1 hp8⟩

/-- Two selections agree exactly when the values agree at every selected position (41_permutation.md R100). -/
theorem permute_eq_permute_iff {w n : Nat} {table : List Nat} (hn : table.length = n) (x y : BitVec w) :
    permute n table x = permute n table y ↔ ∀ p ∈ table, pos x p = pos y p := by
  constructor
  · intro h p hp
    obtain ⟨i, hi, rfl⟩ := List.mem_iff_getElem.mp hp
    have hpos := congrArg (pos · (i + 1)) h
    simpa only [pos_permute n table _ hn (i + 1) (by omega) (by omega), Nat.add_sub_cancel,
      List.getD_eq_getElem _ _ hi] using hpos
  · intro h
    apply eq_of_pos_eq
    intro m h1 hm
    rw [pos_permute n table x hn m h1 hm, pos_permute n table y hn m h1 hm]
    exact h _ (getD_mem_of_position table m h1 (hm.trans_eq hn.symm))

/-- The 56 bits PC-1 selects are C_0 || D_0 (40_key_schedule.md R82). -/
theorem append_initialKeyHalves (key : Key) :
    ((initialKeyHalves key).1 ++ (initialKeyHalves key).2 : BitVec 56) = permute 56 pc1Table key := by
  have hsplit : 28 = 0 + 28 := rfl
  exact (BitVec.extractLsb'_append_extractLsb'_eq_extractLsb' hsplit).trans BitVec.extractLsb'_eq_self

/-- The halves C_0 and D_0 hold the used bits and no other (40_key_schedule.md R88). -/
theorem initialKeyHalves_eq_iff (key key' : Key) :
    initialKeyHalves key = initialKeyHalves key' ↔ sameUsedBits key key' := by
  have hpc1 : permute 56 pc1Table key = permute 56 pc1Table key' ↔ sameUsedBits key key' := by
    rw [permute_eq_permute_iff table_lengths.1, sameUsedBits_iff_pos]
    simp only [mem_pc1Table_iff, and_imp]
  rw [← hpc1]
  constructor
  · intro h
    rw [← append_initialKeyHalves, h, append_initialKeyHalves]
  · intro h
    rw [initialKeyHalves, h, initialKeyHalves]

/-! ### The subkeys determine the halves -/

/-- The first 28 positions of C || D are those of C, the others those of D. -/
theorem pos_append_halves (c d : KeyHalf) (p : Nat) (hp : p ≤ 56) :
    pos (c ++ d : BitVec 56) p = if p ≤ 28 then pos c p else pos d (p - 28) := by
  rw [pos, BitVec.getLsbD_append]
  by_cases h : p ≤ 28
  · have hhigh : ¬ 56 - p < 28 := by omega
    have hbit : 56 - p - 28 = 28 - p := by omega
    rw [if_neg hhigh, if_pos h, hbit, pos]
  · have hlow : 56 - p < 28 := by omega
    have hbit : 56 - p = 28 - (p - 28) := by omega
    rw [if_pos hlow, if_neg h, hbit, pos]

/-- The halves of two keys are equal when the bits of C || D agree at every position. -/
theorem halves_eq_of_pos_append_eq (cd cd' : KeyHalf × KeyHalf)
    (h : ∀ p, 1 ≤ p → p ≤ 56 → pos (cd.1 ++ cd.2 : BitVec 56) p = pos (cd'.1 ++ cd'.2 : BitVec 56) p) : cd = cd' := by
  apply Prod.ext
  · apply eq_of_pos_eq
    intro p h1 hp
    have hpos := h p h1 (by omega)
    rwa [pos_append_halves _ _ p (by omega), pos_append_halves _ _ p (by omega), if_pos hp, if_pos hp] at hpos
  · apply eq_of_pos_eq
    intro p h1 hp
    have hpos := h (p + 28) (by omega) (by omega)
    rwa [pos_append_halves _ _ _ (by omega), pos_append_halves _ _ _ (by omega), if_neg (by omega), if_neg (by omega),
      Nat.add_sub_cancel] at hpos

/-- Rotated by 1, position p of either half holds what stood at position p + 1; only the last position of a half takes its
bit from elsewhere. -/
theorem pos_append_rotateHalves_one (cd : KeyHalf × KeyHalf) (p : Nat) (h1 : 1 ≤ p) (hp : p < 56) (h28 : p ≠ 28) :
    pos ((rotateHalves cd 1).1 ++ (rotateHalves cd 1).2 : BitVec 56) p = pos (cd.1 ++ cd.2 : BitVec 56) (p + 1) := by
  rw [pos_append_halves _ _ p (by omega), pos_append_halves _ _ _ (by omega)]
  by_cases h : p ≤ 28
  · rw [if_pos h, if_pos (by omega), rotateHalves, pos_rotl28 _ 1 p (by omega) h1 h]
    congr 1; omega
  · rw [if_neg h, if_neg (by omega), rotateHalves, pos_rotl28 _ 1 _ (by omega) (by omega) (by omega)]
    congr 1; omega

/-- The eight positions that PC-2 omits (40_key_schedule.md R86) follow positions that it selects. -/
theorem mem_pc2Table_or_pred : ∀ p < 57, 1 ≤ p → p ∈ pc2Table ∨ (p - 1 ∈ pc2Table ∧ 2 ≤ p ∧ p ≠ 29) := by decide

/-- K[15] is PC-2 of C_0 || D_0 (40_key_schedule.md R90). -/
theorem getElem_keySchedule_fifteen (key : Key) : (keySchedule key)[15] = subkeyOfHalves (initialKeyHalves key) := by
  rw [getElem_keySchedule key 15 (by omega), halvesAfter_sixteen]

/-- K[0] is PC-2 of the halves rotated by 1 (40_key_schedule.md R83, R85). -/
theorem getElem_keySchedule_first (key : Key) :
    (keySchedule key)[0] = subkeyOfHalves (rotateHalves (initialKeyHalves key) 1) :=
  getElem_keySchedule key 0 (by omega)

/-- K[15] gives the bits of C_0 || D_0 that PC-2 selects, and K[0] those that follow them (40_key_schedule.md R88). -/
theorem initialKeyHalves_eq_of_keySchedule_eq (key key' : Key) (h : keySchedule key = keySchedule key') :
    initialKeyHalves key = initialKeyHalves key' := by
  have hlast : subkeyOfHalves (initialKeyHalves key) = subkeyOfHalves (initialKeyHalves key') := by
    rw [← getElem_keySchedule_fifteen, h, getElem_keySchedule_fifteen]
  have hfirst : subkeyOfHalves (rotateHalves (initialKeyHalves key) 1) =
      subkeyOfHalves (rotateHalves (initialKeyHalves key') 1) := by
    rw [← getElem_keySchedule_first, h, getElem_keySchedule_first]
  rw [subkeyOfHalves, subkeyOfHalves, permute_eq_permute_iff table_lengths.2.1] at hlast hfirst
  apply halves_eq_of_pos_append_eq
  intro p h1 hp
  obtain hsel | ⟨hsel, h2, h29⟩ := mem_pc2Table_or_pred p (by omega) h1
  · exact hlast p hsel
  · have hpred := hfirst (p - 1) hsel
    rwa [pos_append_rotateHalves_one _ _ (by omega) (by omega) (by omega),
      pos_append_rotateHalves_one _ _ (by omega) (by omega) (by omega), Nat.sub_add_cancel h1] at hpred

/-- The subkeys are a function of C_0 and D_0 (40_key_schedule.md R85). -/
theorem keySchedule_eq_of_initialKeyHalves_eq (key key' : Key) (h : initialKeyHalves key = initialKeyHalves key') :
    keySchedule key = keySchedule key' := by
  apply Vector.ext
  intro i hi
  rw [getElem_keySchedule key i hi, getElem_keySchedule key' i hi, halvesAfter, h, halvesAfter]

/-- Settles O21: the subkeys determine C_0 and D_0, which hold exactly the used bits. -/
theorem scheduleReadsExactlyTheUsedBits : Obligations.ScheduleReadsExactlyTheUsedBits := by
  intro key key'
  rw [← initialKeyHalves_eq_iff]
  exact ⟨initialKeyHalves_eq_of_keySchedule_eq key key', keySchedule_eq_of_initialKeyHalves_eq key key'⟩

end Sys2Proof.Machine

/-! PROOF. The block transform backwards (spec/43_block_transform.md R150, R151): a round undoes itself on exchanged halves, so
the rounds in reverse order undo the rounds. -/

namespace Sys2Proof.Machine

/-! ### The other direction -/

/-- The direction that undoes a direction. -/
def Dir.opposite : Dir → Dir
  | .enc => .dec
  | .dec => .enc

/-- The opposite direction uses the subkeys in reverse order (43_block_transform.md R144). -/
theorem subkeyOrder_opposite (dir : Dir) (ks : Vector Subkey 16) :
    subkeyOrder dir.opposite ks = (subkeyOrder dir ks).reverse := by
  cases dir with
  | enc => rfl
  | dec => exact (List.reverse_reverse _).symm

/-- A round on the exchanged halves of its own result gives its argument back, exchanged (43_block_transform.md R143). -/
theorem feistelRound_swap_feistelRound (lr : Half × Half) (k : Subkey) :
    feistelRound (feistelRound lr k).swap k = lr.swap := by
  simp only [feistelRound, Prod.swap, BitVec.xor_assoc, BitVec.xor_self, BitVec.xor_zero]

/-- The rounds in reverse order, on exchanged halves, undo the rounds (43_block_transform.md R150). -/
theorem foldl_feistelRound_reverse (ks : List Subkey) (lr : Half × Half) :
    ks.reverse.foldl feistelRound (ks.foldl feistelRound lr).swap = lr.swap := by
  induction ks generalizing lr with
  | nil => rfl
  | cons k rest ih =>
    rw [List.reverse_cons, List.foldl_concat, List.foldl_cons, ih, feistelRound_swap_feistelRound]

/-! ### From halves to blocks and back -/

/-- IP of the block made of R_16 || L_16 gives those halves back, exchanged (43_block_transform.md R142, R145). -/
theorem initialHalves_outputOfHalves (lr : Half × Half) : initialHalves (outputOfHalves lr) = lr.swap := by
  rw [initialHalves, outputOfHalves, initialPermutation_finalPermutation]
  exact Prod.ext (BitVec.extractLsb'_append_eq_left) (BitVec.extractLsb'_append_eq_right)

/-- The exchanged halves of IP(block) make the block (43_block_transform.md R142, R145). -/
theorem outputOfHalves_swap_initialHalves (block : Block) : outputOfHalves (initialHalves block).swap = block := by
  have happend : ((initialHalves block).1 ++ (initialHalves block).2 : BitVec 64) = initialPermutation block := by
    have hsplit : 32 = 0 + 32 := rfl
    exact (BitVec.extractLsb'_append_extractLsb'_eq_extractLsb' hsplit).trans BitVec.extractLsb'_eq_self
  calc outputOfHalves (initialHalves block).swap
      = finalPermutation ((initialHalves block).1 ++ (initialHalves block).2 : BitVec 64) := rfl
    _ = block := by rw [happend, finalPermutation_initialPermutation]

/-- CRYPT in the opposite direction under the same key undoes CRYPT (43_block_transform.md R150). -/
theorem crypt_crypt_opposite (block : Block) (key : Key) (dir : Dir) :
    crypt (crypt block key dir) key dir.opposite = block := by
  rw [crypt, finalHalves, crypt, initialHalves_outputOfHalves, finalHalves, subkeyOrder_opposite,
    foldl_feistelRound_reverse, outputOfHalves_swap_initialHalves]

/-- Settles O27: each direction is the opposite of the other. -/
theorem blockRoundTrip : Obligations.BlockRoundTrip :=
  fun block key => ⟨crypt_crypt_opposite block key .enc, crypt_crypt_opposite block key .dec⟩

/-- CRYPT with a fixed key and direction has the opposite direction as its inverse (43_block_transform.md R151). -/
theorem crypt_bijective (key : Key) (dir : Dir) : Function.Bijective fun block => crypt block key dir := by
  have hopposite : dir.opposite.opposite = dir := by cases dir <;> rfl
  refine Function.bijective_iff_has_inverse.mpr ⟨fun block => crypt block key dir.opposite,
    fun block => crypt_crypt_opposite block key dir, fun block => ?_⟩
  have hback := crypt_crypt_opposite block key dir.opposite
  rwa [hopposite] at hback

/-- Sixteen equal subkeys are used in the same order by both directions (43_block_transform.md R151). -/
theorem subkeyOrder_dec_of_equal (ks : Vector Subkey 16) (h : ∀ i : Fin 16, ks[i] = ks[0]) :
    subkeyOrder .dec ks = subkeyOrder .enc ks := by
  have hreplicate : ks.toList = List.replicate 16 ks[0] := by
    refine List.eq_replicate_iff.mpr ⟨ks.length_toList, fun k hk => ?_⟩
    obtain ⟨i, hi, rfl⟩ := List.mem_iff_getElem.mp hk
    rw [Vector.getElem_toList]
    exact h ⟨i, hi.trans_eq ks.length_toList⟩
  rw [subkeyOrder, subkeyOrder, hreplicate, List.reverse_replicate]

/-- A key with sixteen equal subkeys encrypts and decrypts alike (43_block_transform.md R151). -/
theorem crypt_enc_eq_crypt_dec (key : Key) (h : ∀ i : Fin 16, (keySchedule key)[i] = (keySchedule key)[0]) (block : Block) :
    crypt block key .enc = crypt block key .dec := by
  rw [crypt, crypt, finalHalves, finalHalves, subkeyOrder_dec_of_equal _ h]

/-- The halves L_16 and R_16 depend on KEY through the subkeys alone (43_block_transform.md R143). -/
theorem finalHalves_eq_of_keySchedule_eq (key key' : Key) (h : keySchedule key = keySchedule key') (block : Block) (dir : Dir) :
    finalHalves block key dir = finalHalves block key' dir := by
  rw [finalHalves, h, finalHalves]

/-- Keys that agree on the used bits give the same transform (43_block_transform.md R151). -/
theorem crypt_eq_of_sameUsedBits (key key' : Key) (h : sameUsedBits key key') (block : Block) (dir : Dir) :
    crypt block key dir = crypt block key' dir := by
  rw [crypt, finalHalves_eq_of_keySchedule_eq key key' ((scheduleReadsExactlyTheUsedBits key key').mpr h), crypt]

/-- Settles O28: the inverse is CRYPT in the opposite direction, and CRYPT sees the key through its subkeys alone. -/
theorem cryptIsABijection : Obligations.CryptIsABijection :=
  ⟨crypt_bijective, crypt_enc_eq_crypt_dec, fun key key' dir block h => crypt_eq_of_sameUsedBits key key' h block dir⟩

/-- Settles O23: the rotations are one whole turn, and constant halves stay as they are under every rotation. -/
theorem constantHalvesGiveEqualSubkeys : Obligations.ConstantHalvesGiveEqualSubkeys := by
  refine ⟨fun key => ⟨finalKeyHalves_eq_initialKeyHalves key, getElem_keySchedule_fifteen key⟩,
    fun i => ⟨keySchedule_zero i, keySchedule_allOnes i⟩,
    fun key hc hd => ?_, fun key hkey => ?_⟩
  · have hequal := keySchedule_constant key hc hd
    exact ⟨hequal, crypt_enc_eq_crypt_dec key hequal⟩
  · obtain ⟨hc, hd⟩ := constant_halves_of_weak_key key hkey
    exact keySchedule_constant key hc hd

end Sys2Proof.Machine

/-! PROOF. The complement property (spec/94_derived_vectors.md section 4.3): every permutation, every rotation and every round
commutes with complementing all bits; in the F-function the complements of the half and of the subkey cancel. -/

namespace Sys2Proof.Machine

/-- Both halves complemented. -/
def complementHalves {w : Nat} (p : BitVec w × BitVec w) : BitVec w × BitVec w := (~~~p.1, ~~~p.2)

/-- Complementing a word complements its fields. -/
theorem extractLsb'_not_of_le {w : Nat} (x : BitVec w) (start len : Nat) (h : start + len ≤ w) :
    (~~~x).extractLsb' start len = ~~~(x.extractLsb' start len) := by
  apply BitVec.eq_of_getLsbD_eq
  intro i hi
  have hlt : start + i < w := by omega
  simp only [BitVec.getLsbD_extractLsb', BitVec.getLsbD_not, hi, hlt, decide_true, Bool.true_and]

theorem not_xor_not {w : Nat} (x y : BitVec w) : ~~~x ^^^ ~~~y = x ^^^ y := by
  rw [← BitVec.not_xor_left, ← BitVec.not_xor_right, BitVec.not_not]

theorem pos_not {w : Nat} (x : BitVec w) (p : Nat) (h1 : 1 ≤ p) (hp : p ≤ w) : pos (~~~x) p = !pos x p := by
  have hlt : w - p < w := by omega
  rw [pos, BitVec.getLsbD_not, decide_eq_true hlt, Bool.true_and, pos]

/-! ### The key schedule -/

theorem rotl28_not (x : KeyHalf) (n : Nat) (hn : n < 28) : rotl28 (~~~x) n = ~~~(rotl28 x n) := by
  apply eq_of_pos_eq
  intro p h1 hp
  rw [pos_not _ p h1 hp, pos_rotl28 x n p hn h1 hp, pos_rotl28 _ n p hn h1 hp, pos_not _ _ (by omega) (by omega)]

theorem initialKeyHalves_not (key : Key) : initialKeyHalves (~~~key) = complementHalves (initialKeyHalves key) := by
  rw [initialKeyHalves, permute_not table_lengths.1 table_entries_in_range.1]
  exact Prod.ext (extractLsb'_not_of_le _ 28 28 (by omega)) (extractLsb'_not_of_le _ 0 28 (by omega))

theorem foldl_rotateHalves_complementHalves (rots : List Nat) (hrots : ∀ n ∈ rots, n < 28) (cd : KeyHalf × KeyHalf) :
    rots.foldl rotateHalves (complementHalves cd) = complementHalves (rots.foldl rotateHalves cd) := by
  induction rots generalizing cd with
  | nil => rfl
  | cons n rest ih =>
    obtain ⟨hn, hrest⟩ := List.forall_mem_cons.mp hrots
    have hround : rotateHalves (complementHalves cd) n = complementHalves (rotateHalves cd n) :=
      Prod.ext (rotl28_not cd.1 n hn) (rotl28_not cd.2 n hn)
    rw [List.foldl_cons, hround, ih hrest, List.foldl_cons]

theorem subkeyOfHalves_complementHalves (cd : KeyHalf × KeyHalf) :
    subkeyOfHalves (complementHalves cd) = ~~~(subkeyOfHalves cd) := by
  rw [subkeyOfHalves, subkeyOfHalves, ← permute_not table_lengths.2.1 table_entries_in_range.2.1, BitVec.not_append]
  rfl

/-- The complemented key has the complemented subkeys. -/
theorem keySchedule_not (key : Key) : keySchedule (~~~key) = (keySchedule key).map (~~~·) := by
  apply Vector.ext
  intro i hi
  have hrots : ∀ n ∈ rotTable.take (i + 1), n < 28 := fun n hn => rotTable_lt n (List.mem_of_mem_take hn)
  rw [Vector.getElem_map, getElem_keySchedule _ i hi, getElem_keySchedule _ i hi, halvesAfter, initialKeyHalves_not,
    foldl_rotateHalves_complementHalves _ hrots, subkeyOfHalves_complementHalves, halvesAfter]

/-! ### The block transform -/

/-- The complements of the half and of the subkey cancel where the two meet (42_f_function.md R123). -/
theorem fFunction_not_not (r : Half) (k : Subkey) : fFunction (~~~r) (~~~k) = fFunction r k := by
  obtain ⟨-, -, -, -, he, -⟩ := table_lengths
  obtain ⟨-, -, -, -, hrange, -⟩ := table_entries_in_range
  have hexpand : expand (~~~r) = ~~~(expand r) := permute_not he hrange r
  rw [fFunction, hexpand, not_xor_not, fFunction]

/-- A round on complemented halves with the complemented subkey gives the complemented halves. -/
theorem feistelRound_complementHalves (lr : Half × Half) (k : Subkey) :
    feistelRound (complementHalves lr) (~~~k) = complementHalves (feistelRound lr k) := by
  simp only [feistelRound, complementHalves, fFunction_not_not, BitVec.not_xor_left]

theorem foldl_feistelRound_complementHalves (ks : List Subkey) (lr : Half × Half) :
    (ks.map (~~~·)).foldl feistelRound (complementHalves lr) = complementHalves (ks.foldl feistelRound lr) := by
  induction ks generalizing lr with
  | nil => rfl
  | cons k rest ih => rw [List.map_cons, List.foldl_cons, feistelRound_complementHalves, ih, List.foldl_cons]

theorem subkeyOrder_map (dir : Dir) (ks : Vector Subkey 16) (f : Subkey → Subkey) :
    subkeyOrder dir (ks.map f) = (subkeyOrder dir ks).map f := by
  cases dir with
  | enc => exact Vector.toList_map
  | dec => rw [subkeyOrder, Vector.toList_map, subkeyOrder, List.map_reverse]

theorem initialHalves_not (block : Block) : initialHalves (~~~block) = complementHalves (initialHalves block) := by
  obtain ⟨-, -, hip, -⟩ := table_lengths
  obtain ⟨-, -, hrange, -⟩ := table_entries_in_range
  rw [initialHalves, initialPermutation, permute_not hip hrange]
  exact Prod.ext (extractLsb'_not_of_le _ 32 32 (by omega)) (extractLsb'_not_of_le _ 0 32 (by omega))

theorem outputOfHalves_complementHalves (lr : Half × Half) :
    outputOfHalves (complementHalves lr) = ~~~(outputOfHalves lr) := by
  obtain ⟨-, -, -, hfp, -⟩ := table_lengths
  obtain ⟨-, -, -, hrange, -⟩ := table_entries_in_range
  rw [outputOfHalves, outputOfHalves, finalPermutation, finalPermutation, ← permute_not hfp hrange, BitVec.not_append]
  rfl

/-- Settles O29: complemented key and block give complemented halves at the start, so after every round. -/
theorem complementProperty : Obligations.ComplementProperty := by
  intro block key dir
  rw [crypt, finalHalves, keySchedule_not, subkeyOrder_map, initialHalves_not, foldl_feistelRound_complementHalves,
    outputOfHalves_complementHalves]
  rfl

end Sys2Proof.Machine

/-! PROOF. Ignored bits of KEY (spec/40_key_schedule.md R88, spec/43_block_transform.md R151): with a key that agrees on the
used bits every piece of a command but GENKEY does the same, so it commutes with that write of KEY. -/

namespace Sys2Proof.Machine

/-! ### What does not look at KEY -/

section
variable (s : State) (key' : Key)

@[simp] theorem readByte_setKey (b : Buf) (a : Nat) : readByte (s.setKey key') b a = readByte s b a := by
  cases b <;> rfl

@[simp] theorem memRead_setKey (b : Buf) (a : Nat) : memRead (s.setKey key') b a = memRead s b a :=
  blockAt_congr _ _ a fun j _ => readByte_setKey s key' b (a + j)

@[simp] theorem bytesOf_setKey (b : Buf) (n : Nat) : bytesOf (s.setKey key') b n = bytesOf s b n := by
  simp [bytesOf]

@[simp] theorem paddedStream_setKey (n : Nat) : paddedStream (s.setKey key') n = paddedStream s n := by
  funext m
  simp [paddedStream]

@[simp] theorem padBytesMatch_setKey (n padN : Nat) : padBytesMatch (s.setKey key') n padN = padBytesMatch s n padN := by
  simp [padBytesMatch]

theorem raiseError_setKey (cmd : Option Instr) (e : ErrKind) :
    raiseError cmd e (s.setKey key') = (raiseError cmd e s).setKey key' := by
  unfold raiseError
  split <;> rfl

/-- The unpadding checks see the decrypted stream alone (44_ecb_stream.md R168 to R172). -/
theorem unpad_setKey (n : Nat) : unpad n (s.setKey key') = (unpad n s).setKey key' := by
  simp only [unpad, readByte_setKey, padBytesMatch_setKey, bytesOf_setKey, raiseError_setKey]
  split_ifs <;> rfl

end

/-! ### What sees KEY through its used bits -/

section
variable (s : State) (key' : Key) (h : sameUsedBits s.key key')
include h

/-- Deriving the subkeys commutes with the write of KEY: K, C and D are the same (40_key_schedule.md R88). -/
theorem deriveSubkeys_setKey : deriveSubkeys (s.setKey key') = (deriveSubkeys s).setKey key' := by
  have hks := (scheduleReadsExactlyTheUsedBits s.key key').mpr h
  have hhalves : finalKeyHalves s.key = finalKeyHalves key' := by
    rw [finalKeyHalves, (initialKeyHalves_eq_iff s.key key').mpr h, finalKeyHalves]
  simp only [deriveSubkeys_eq, State.setKey, hks, hhalves]

/-- One block of a stream commutes with the write of KEY (43_block_transform.md R151). -/
theorem streamBlock_setKey (dir : Dir) (block : Block) (i : Nat) :
    streamBlock dir block i (s.setKey key') = (streamBlock dir block i s).setKey key' := by
  have hhalves := finalHalves_eq_of_keySchedule_eq _ _ ((scheduleReadsExactlyTheUsedBits s.key key').mpr h) block dir
  have hcrypt := crypt_eq_of_sameUsedBits _ _ h block dir
  rw [streamBlock, setRoundRegs_eq, State.setKey_key, ← hhalves, ← hcrypt]
  rfl

theorem streamLoop_setKey (dir : Dir) (source : Nat → Block) (count : Nat) :
    streamLoop dir source count (s.setKey key') = (streamLoop dir source count s).setKey key' := by
  induction count with
  | zero => rfl
  | succ count ih =>
    have hkey : sameUsedBits (streamLoop dir source count s).key key' := by rwa [streamLoop_key]
    rw [streamLoop, ih, streamBlock_setKey _ key' hkey]
    rfl

theorem blockCommand_setKey (dir : Dir) : blockCommand dir (s.setKey key') = (blockCommand dir s).setKey key' := by
  have hhalves := finalHalves_eq_of_keySchedule_eq _ _ ((scheduleReadsExactlyTheUsedBits s.key key').mpr h) s.din dir
  have hcrypt := crypt_eq_of_sameUsedBits _ _ h s.din dir
  rw [blockCommand, deriveSubkeys_setKey s key' h, setRoundRegs_eq]
  simp only [State.setKey_key, State.setKey_din, ← hhalves, ← hcrypt]
  rfl

theorem encryptStream_setKey : encryptStream (s.setKey key') = (encryptStream s).setKey key' := by
  simp only [encryptStream, State.setKey_ilen, paddedStream_setKey, deriveSubkeys_setKey s key' h]
  rw [streamLoop_setKey (deriveSubkeys s) key' h]
  rfl

theorem decryptBlocks_setKey : decryptBlocks (s.setKey key') = (decryptBlocks s).setKey key' := by
  simp only [decryptBlocks, State.setKey_ilen, memRead_setKey, deriveSubkeys_setKey s key' h]
  exact streamLoop_setKey (deriveSubkeys s) key' h _ _ _

end

/-- What DECS can answer as a next state (44_ecb_stream.md R165, R166). -/
theorem exec_decs_eq_next_iff (s t : State) : exec .decs s = .next t ↔
    (s.ilen.toNat % 8 ≠ 0 ∧ t = { s with olen := 0#32, status := 0x01#8 }) ∨
    (s.ilen.toNat % 8 = 0 ∧ s.ilen.toNat ≤ Config.maxLen ∧ t = unpad s.ilen.toNat (decryptBlocks s)) := by
  show execDecs s = .next t ↔ _
  rcases execDecs_cases s with ⟨h8, hexec⟩ | ⟨h8, hin, hexec⟩ | ⟨h8, hout, hexec⟩ <;> rw [hexec]
  · simp only [Host.Outcome.next.injEq, h8, ne_eq, not_false_eq_true, true_and, false_and, or_false]
    exact eq_comm
  · simp only [Host.Outcome.next.injEq, h8, hin, ne_eq, not_true_eq_false, true_and, false_and, false_or]
    exact eq_comm
  · simp only [h8, hout.not_ge, ne_eq, not_true_eq_false, false_and, and_false, or_false, reduceCtorEq]

/-- Every command but GENKEY commutes with a write of KEY that keeps the used bits. -/
theorem exec_setKey (i : Instr) (s t : State) (key' : Key) (hi : i ≠ .genkey) (h : sameUsedBits s.key key')
    (hexec : exec i s = .next t) : exec i (s.setKey key') = .next (t.setKey key') := by
  cases i with
  | genkey => exact absurd rfl hi
  | keyexp =>
    cases hexec
    exact congrArg (fun u => Host.Outcome.next (complete u)) (deriveSubkeys_setKey s key' h)
  | encb =>
    cases hexec
    exact congrArg Host.Outcome.next (blockCommand_setKey s key' h .enc)
  | decb =>
    cases hexec
    exact congrArg Host.Outcome.next (blockCommand_setKey s key' h .dec)
  | encs =>
    obtain ⟨hlen, rfl⟩ := (exec_encs_eq_next_iff s t).mp hexec
    exact (exec_encs_eq_next_iff _ _).mpr ⟨hlen, (encryptStream_setKey s key' h).symm⟩
  | decs =>
    rw [exec_decs_eq_next_iff] at hexec ⊢
    obtain ⟨h8, rfl⟩ | ⟨h8, hlen, rfl⟩ := hexec
    · exact .inl ⟨h8, rfl⟩
    · refine .inr ⟨h8, hlen, ?_⟩
      rw [decryptBlocks_setKey s key' h, unpad_setKey, State.setKey_ilen]

/-- Settles O22: `exec_setKey` says it of the update of KEY. -/
theorem ignoredKeyBitsChangeNoResult : Obligations.IgnoredKeyBitsChangeNoResult :=
  fun i s t key' hi h hexec => exec_setKey i s t key' hi h hexec

end Sys2Proof.Machine

/-! PROOF. The rules over all commands (spec/10_state.md R16, R24 to R26, R33, spec/45_host_access.md R199): what a command
leaves alone, what it leaves in the working registers, its outcome, and the inputs its results depend on. Each follows from
what the command itself is known to do. -/

namespace Sys2Proof.Machine

/-! ### The frame -/

/-- DECS writes no more than a stream command may, whatever its outcome. -/
theorem streamFrame_decs (s t : State) (h : exec .decs s = .next t) : StreamFrame s t := by
  obtain ⟨-, rfl⟩ | ⟨-, -, rfl⟩ := (exec_decs_eq_next_iff s t).mp h
  · rfl
  · exact streamFrame_unpad_decryptBlocks _ s

/-- DECS leaves OBUF as it was from ILEN on, and everywhere when it fails its length check (44_ecb_stream.md R166, R167). -/
theorem sameObufFrom_decs (s t : State) (h : exec .decs s = .next t) : sameObufFrom (obufWritten .decs s) s t := by
  obtain ⟨h8, rfl⟩ | ⟨h8, -, rfl⟩ := (exec_decs_eq_next_iff s t).mp h
  · intro a _
    exact readByte_obuf_congr _ _ rfl rfl a
  · obtain ⟨-, -, -, -, hobuf, -⟩ := unpad_decryptBlocks_leaves s h8 _ rfl
    rwa [obufWritten, if_pos h8]

/-- Settles O42: the frame is part of what each command is known to do. -/
theorem commandFrame : Obligations.CommandFrame := by
  intro i s t h
  cases i with
  | genkey =>
    cases h
    refine ⟨fun reg hreg => ?_, fun a => readByte_ibuf_congr _ _ rfl rfl a, fun a _ => readByte_obuf_congr _ _ rfl rfl a,
      ⟨rfl, rfl, rfl⟩, fun hne => absurd rfl hne⟩
    cases reg with
    | key | status => cases hreg
    | cmd | din | dout | ilen | olen | k _ => rfl
  | keyexp =>
    obtain ⟨_, hexec, -, -, hregs, hibuf, hobuf, hout, hdraws, -⟩ := keyexpCompletes s
    cases hexec.symm.trans h
    exact ⟨hregs, hibuf, hobuf, hout, fun _ => hdraws⟩
  | encb =>
    obtain ⟨_, hexec, -, -, -, hregs, hibuf, hobuf, hout, hdraws⟩ := encbCompletes s
    cases hexec.symm.trans h
    exact ⟨hregs, hibuf, hobuf, hout, fun _ => hdraws⟩
  | decb =>
    obtain ⟨_, hexec, -, -, -, hregs, hibuf, hobuf, hout, hdraws⟩ := decbCompletes s
    cases hexec.symm.trans h
    exact ⟨hregs, hibuf, hobuf, hout, fun _ => hdraws⟩
  | encs =>
    obtain ⟨-, rfl⟩ := (exec_encs_eq_next_iff s t).mp h
    have hframe := streamFrame_encryptStream s
    exact ⟨hframe.sameRegs_of (.inl rfl), hframe.sameIbuf_of, sameObufFrom_encryptStream s, hframe.sameOutside_of,
      fun _ => hframe.draws_eq⟩
  | decs =>
    have hframe := streamFrame_decs s t h
    exact ⟨hframe.sameRegs_of (.inr rfl), hframe.sameIbuf_of, sameObufFrom_decs s t h, hframe.sameOutside_of,
      fun _ => hframe.draws_eq⟩

/-! ### The outcome -/

/-- STATUS after DECS is success or one of the three errors of DECS (44_ecb_stream.md R165). -/
theorem decs_status (s t : State) (h : exec .decs s = .next t) : t.status ∈ [0x08#8, 0x01#8, 0x02#8, 0x03#8] := by
  obtain ⟨-, rfl⟩ | ⟨-, -, rfl⟩ := (exec_decs_eq_next_iff s t).mp h
  · simp
  · rcases unpad_status s.ilen.toNat (decryptBlocks s) with hstatus | hstatus | hstatus <;> simp [hstatus]

/-- Every command but DECS can only succeed (10_state.md R16). -/
theorem status_of_ne_decs (i : Instr) (s t : State) (hi : i ≠ .decs) (h : exec i s = .next t) : t.status = 0x08#8 := by
  cases i with
  | decs => exact absurd rfl hi
  | encs => obtain ⟨-, rfl⟩ := (exec_encs_eq_next_iff s t).mp h; rfl
  | genkey | keyexp => cases h; rfl
  | encb | decb => cases h; rw [blockCommand_eq]

/-- In each outcome a command can report, VALID is 1 exactly when ERR is 0 (10_state.md R16). -/
theorem validField_iff_errField (v : BitVec 8) (hv : v ∈ [0x08#8, 0x01#8, 0x02#8, 0x03#8]) :
    validField v = true ↔ errField v = 0#3 := by
  revert v
  simp only [List.forall_mem_cons]
  decide

/-- Settles O44: DECS alone can fail. -/
theorem everyCommandReportsItsOutcome : Obligations.EveryCommandReportsItsOutcome := by
  intro i s t h
  have hok := fun hi : i ≠ .decs => status_of_ne_decs i s t hi h
  have hmem : t.status ∈ [0x08#8, 0x01#8, 0x02#8, 0x03#8] := by
    by_cases hi : i = .decs
    · exact decs_status s t (hi ▸ h)
    · rw [hok hi]; exact List.mem_cons_self
  exact ⟨hok, hmem, validField_iff_errField _ hmem⟩

/-! ### The working registers -/

/-- The loop leaves in L and R the halves of its last block, whose output it has written last (43_block_transform.md R145,
44_ecb_stream.md R163, R167). -/
theorem outputOfHalves_streamLoop (dir : Dir) (source : Nat → Block) (count : Nat) (s : State) :
    outputOfHalves ((streamLoop dir source (count + 1) s).l, (streamLoop dir source (count + 1) s).r) =
      memRead (streamLoop dir source (count + 1) s) .obuf (8 * count) := by
  rw [memRead_streamLoop dir source (count + 1) s count (Nat.lt_succ_self count), crypt,
    ← streamLoop_key dir source count s]
  rfl

/-- After the derivation and the block loop C, D hold C_16, D_16, which are C_0, D_0, and RND is 16 (10_state.md R24, R26). -/
theorem streamLoop_deriveSubkeys_keyRegs (dir : Dir) (source : Nat → Block) (count : Nat) (s : State) :
    ((streamLoop dir source count (deriveSubkeys s)).c, (streamLoop dir source count (deriveSubkeys s)).d) =
      initialKeyHalves s.key ∧
    (streamLoop dir source count (deriveSubkeys s)).rnd = 16#5 := by
  refine ⟨?_, streamLoop_rnd dir source count (deriveSubkeys s) rfl⟩
  obtain ⟨_, _, _, _, _, hloop⟩ := streamLoop_frame dir source count (deriveSubkeys s)
  rw [hloop]
  exact finalKeyHalves_eq_initialKeyHalves s.key

/-- The working registers of the state after the unpadding checks are those of the state before (44_ecb_stream.md R168). -/
theorem unpad_workingRegs (n : Nat) (s : State) :
    (unpad n s).c = s.c ∧ (unpad n s).d = s.d ∧ (unpad n s).l = s.l ∧ (unpad n s).r = s.r ∧ (unpad n s).rnd = s.rnd ∧
    (unpad n s).blk = s.blk ∧ memRead (unpad n s) .obuf = memRead s .obuf := by
  obtain ⟨_, _, h⟩ := unpad_frame n s
  rw [h]
  exact ⟨rfl, rfl, rfl, rfl, rfl, rfl, rfl⟩

/-- The encryption of the B blocks of the padded stream into OBUF, the subkeys derived before it (44_ecb_stream.md R163). -/
def encryptBlocks (s : State) : State :=
  streamLoop .enc (fun i => blockAt (paddedStream s s.ilen.toNat) (8 * i)) (paddedBlocks s.ilen.toNat) (deriveSubkeys s)

/-- ENCS is the block encryption, OLEN and success (44_ecb_stream.md R163). -/
theorem encryptStream_eq (s : State) :
    encryptStream s = complete ((encryptBlocks s).setOlen (BitVec.ofNat 32 (8 * paddedBlocks s.ilen.toNat))) := rfl

/-- Reporting success with a length touches neither the working registers nor OBUF (44_ecb_stream.md R163). -/
theorem complete_setOlen_workingRegs (v : Len) (s : State) :
    (complete (s.setOlen v)).c = s.c ∧ (complete (s.setOlen v)).d = s.d ∧ (complete (s.setOlen v)).l = s.l ∧
    (complete (s.setOlen v)).r = s.r ∧ (complete (s.setOlen v)).rnd = s.rnd ∧ (complete (s.setOlen v)).blk = s.blk ∧
    memRead (complete (s.setOlen v)) .obuf = memRead s .obuf := ⟨rfl, rfl, rfl, rfl, rfl, rfl, rfl⟩

/-- The block encryption of ENCS leaves in L and R the halves of its last block, and in BLK the number of blocks
(44_ecb_stream.md R163, R174). -/
theorem encryptBlocks_blockRegs (s : State) :
    outputOfHalves ((encryptBlocks s).l, (encryptBlocks s).r) = memRead (encryptBlocks s) .obuf (8 * (s.ilen.toNat / 8)) ∧
    (encryptBlocks s).blk.toNat = s.ilen.toNat / 8 + 1 := by
  have hlt := s.ilen.isLt
  rw [encryptBlocks, paddedBlocks]
  refine ⟨outputOfHalves_streamLoop .enc _ (s.ilen.toNat / 8) (deriveSubkeys s), ?_⟩
  rw [streamLoop_blk]
  exact Nat.mod_eq_of_lt (by omega)

/-- The block decryption of DECS leaves in L and R the halves of its last block, if there is one, and in BLK the number of
blocks (44_ecb_stream.md R167, R174). -/
theorem decryptBlocks_blockRegs (s : State) (h8 : s.ilen.toNat % 8 = 0) :
    (decryptBlocks s).blk.toNat = s.ilen.toNat / 8 ∧
    (s.ilen.toNat = 0 → (decryptBlocks s).l = s.l ∧ (decryptBlocks s).r = s.r) ∧
    (0 < s.ilen.toNat → outputOfHalves ((decryptBlocks s).l, (decryptBlocks s).r) =
      memRead (decryptBlocks s) .obuf (s.ilen.toNat - 8)) := by
  have hlt := s.ilen.isLt
  refine ⟨?_, fun hzero => ?_, fun hpos => ?_⟩
  · rw [decryptBlocks, streamLoop_blk]
    exact Nat.mod_eq_of_lt (by omega)
  · rw [decryptBlocks, hzero]
    exact ⟨rfl, rfl⟩
  · obtain ⟨count, hcount⟩ : ∃ count, s.ilen.toNat = 8 * (count + 1) := ⟨s.ilen.toNat / 8 - 1, by omega⟩
    have hblocks : s.ilen.toNat / 8 = count + 1 := by omega
    have hlast : s.ilen.toNat - 8 = 8 * count := by omega
    rw [decryptBlocks, hblocks, hlast]
    exact outputOfHalves_streamLoop .dec _ count (deriveSubkeys s)

/-- The output of a transform is made of its halves L_16 and R_16 (43_block_transform.md R145). -/
theorem outputOfHalves_finalHalves (block : Block) (key : Key) (dir : Dir) :
    outputOfHalves ((finalHalves block key dir).1, (finalHalves block key dir).2) = crypt block key dir := rfl

/-- Settles O43: the derivation leaves C, D and RND, the rounds L and R, the block loop BLK; no other piece of a command
writes a working register. -/
theorem workingRegistersAfterCommands : Obligations.WorkingRegistersAfterCommands := by
  intro i s t h
  cases i with
  | genkey =>
    cases h
    exact ⟨fun _ => ⟨rfl, rfl, rfl, rfl, rfl, rfl⟩, fun hne => absurd rfl hne, nofun, nofun, nofun, nofun, nofun⟩
  | keyexp =>
    cases h
    exact ⟨nofun, fun _ _ => ⟨finalKeyHalves_eq_initialKeyHalves s.key, rfl⟩, fun _ => ⟨rfl, rfl, rfl⟩, nofun, nofun, nofun,
      nofun⟩
  | encb =>
    cases h
    rw [blockCommand_eq]
    exact ⟨nofun, fun _ _ => ⟨finalKeyHalves_eq_initialKeyHalves s.key, rfl⟩, nofun,
      fun _ => ⟨outputOfHalves_finalHalves _ _ _, rfl⟩, nofun, nofun, nofun⟩
  | decb =>
    cases h
    rw [blockCommand_eq]
    exact ⟨nofun, fun _ _ => ⟨finalKeyHalves_eq_initialKeyHalves s.key, rfl⟩, nofun, nofun,
      fun _ => ⟨outputOfHalves_finalHalves _ _ _, rfl⟩, nofun, nofun⟩
  | encs =>
    obtain ⟨-, rfl⟩ := (exec_encs_eq_next_iff s t).mp h
    rw [encryptStream_eq]
    obtain ⟨hc, hd, hl, hr, hrnd, hblk, hmem⟩ := complete_setOlen_workingRegs _ (encryptBlocks s)
    rw [hc, hd, hl, hr, hrnd, hblk, hmem]
    exact ⟨nofun, fun _ _ => streamLoop_deriveSubkeys_keyRegs .enc _ _ s, nofun, nofun, nofun,
      fun _ => encryptBlocks_blockRegs s, nofun⟩
  | decs =>
    obtain ⟨h8, rfl⟩ | ⟨h8, -, rfl⟩ := (exec_decs_eq_next_iff s t).mp h
    · exact ⟨fun _ => ⟨rfl, rfl, rfl, rfl, rfl, rfl⟩, fun _ hpass => absurd ⟨rfl, h8⟩ hpass, nofun, nofun, nofun, nofun,
        fun _ haligned => absurd haligned h8⟩
    · obtain ⟨hc, hd, hl, hr, hrnd, hblk, hmem⟩ := unpad_workingRegs s.ilen.toNat (decryptBlocks s)
      rw [hc, hd, hl, hr, hrnd, hblk, hmem]
      exact ⟨fun hfail => absurd h8 (hfail.resolve_left nofun).2,
        fun _ _ => streamLoop_deriveSubkeys_keyRegs .dec _ _ s, nofun, nofun, nofun, nofun,
        fun _ _ => decryptBlocks_blockRegs s h8⟩

/-! ### The inputs the results depend on -/

/-- A block command is `blockCommand` in one of the two directions (43_block_transform.md R147, R148). -/
theorem exists_dir_of_block (i : Instr) (h : i = .encb ∨ i = .decb) : ∃ dir, i = blockInstr dir := by
  rcases h with rfl | rfl
  · exact ⟨.enc, rfl⟩
  · exact ⟨.dec, rfl⟩

/-- Settles O46: DOUT and K are functions of KEY and DIN, and STATUS is 0x08. -/
theorem blockResultsDependOnKeyAndBlock : Obligations.BlockResultsDependOnKeyAndBlock := by
  intro i s s' t t' hi hkey hdin h h'
  obtain ⟨dir, rfl⟩ := exists_dir_of_block i hi
  obtain ⟨_, hexec, hdout, hk, hstatus, -⟩ := blockInstr_completes dir s
  obtain ⟨_, hexec', hdout', hk', hstatus', -⟩ := blockInstr_completes dir s'
  cases hexec.symm.trans h
  cases hexec'.symm.trans h'
  rw [hdout, hdout', hk, hk', hstatus, hstatus', hkey, hdin]
  exact ⟨rfl, rfl, rfl⟩

section
variable {s s' : State} (hkey : s.key = s'.key) (hlen : s.ilen = s'.ilen)
  (hibuf : ∀ a, a < s.ilen.toNat → readByte s .ibuf a = readByte s' .ibuf a)

include hlen hibuf in
/-- The padded stream is a function of ILEN and IBUF below it (44_ecb_stream.md R161). -/
theorem paddedByte_eq_of_inputs : paddedByte s = paddedByte s' := by
  funext m
  rw [paddedByte, paddedByte, ← hlen]
  by_cases hm : m < s.ilen.toNat
  · rw [if_pos hm, if_pos hm, hibuf m hm]
  · rw [if_neg hm, if_neg hm]

include hkey hibuf in
/-- Below an aligned ILEN the decrypted stream is a function of KEY and IBUF below ILEN (44_ecb_stream.md R167). -/
theorem decryptedByte_eq_of_inputs (h8 : s.ilen.toNat % 8 = 0) (m : Nat) (hm : m < s.ilen.toNat) :
    decryptedByte s m = decryptedByte s' m := by
  have hblock : memRead s .ibuf (8 * (m / 8)) = memRead s' .ibuf (8 * (m / 8)) :=
    blockAt_congr _ _ _ fun j hj => hibuf _ (by omega)
  rw [decryptedByte, hblock, hkey, decryptedByte]

end

/-- Good padding and the unpadded bytes are a matter of ILEN and the decrypted stream below it (44_ecb_stream.md R168 to
R171). -/
theorem padding_eq_of_decryptedByte_eq (s s' : State) (hlen : s.ilen = s'.ilen)
    (hbytes : ∀ m, m < s.ilen.toNat → decryptedByte s m = decryptedByte s' m) (hgood : goodPadding s) :
    goodPadding s' ∧ decryptedPad s' = decryptedPad s ∧ unpaddedBytes s' = unpaddedBytes s := by
  obtain ⟨hpos, hge1, hle8, hpad⟩ := hgood
  have hdecrypted : decryptedPad s' = decryptedPad s := by
    rw [decryptedPad, decryptedPad, ← hlen, hbytes _ (by omega)]
  have hunpadded : unpaddedBytes s' = unpaddedBytes s := by
    rw [unpaddedBytes, unpaddedBytes, hdecrypted, ← hlen]
    refine List.map_congr_left fun m hm => (hbytes m ?_).symm
    exact (List.mem_range.mp hm).trans_le (Nat.sub_le _ _)
  refine ⟨?_, hdecrypted, hunpadded⟩
  rw [goodPadding, hdecrypted, ← hlen]
  exact ⟨hpos, hge1, hle8, fun m hm hge => by rw [← hbytes m hm, hpad m hm hge]⟩

/-- The outcome of the checks is a function of ILEN and the decrypted stream below it (44_ecb_stream.md R168 to R172). -/
theorem unpad_outcome_eq_of_decryptedByte_eq (s s' : State) (h8 : s.ilen.toNat % 8 = 0) (hlen : s.ilen = s'.ilen)
    (hbytes : ∀ m, m < s.ilen.toNat → decryptedByte s m = decryptedByte s' m) :
    (unpad s.ilen.toNat (decryptBlocks s)).status = (unpad s'.ilen.toNat (decryptBlocks s')).status ∧
    (unpad s.ilen.toNat (decryptBlocks s)).olen = (unpad s'.ilen.toNat (decryptBlocks s')).olen := by
  have h8' : s'.ilen.toNat % 8 = 0 := hlen ▸ h8
  by_cases hgood : goodPadding s
  · obtain ⟨hgood', hpad, hunpadded⟩ := padding_eq_of_decryptedByte_eq s s' hlen hbytes hgood
    rw [unpad_of_goodPadding s h8 hgood, unpad_of_goodPadding s' h8' hgood', hpad, hunpadded, ← hlen]
    split
    · simp only [complete_eq, State.setOlen_olen, and_self]
    · simp only [raiseError_decs, and_self]
  · have hbad' : ¬ goodPadding s' := fun hgood' =>
      hgood (padding_eq_of_decryptedByte_eq s' s hlen.symm (fun m hm => (hbytes m (hlen ▸ hm)).symm) hgood').1
    rw [unpad_of_not_goodPadding s h8 hgood, unpad_of_not_goodPadding s' h8' hbad']
    simp only [raiseError_decs, and_self]

/-- Settles O47: ENCS works on the padded stream, DECS on the decrypted one, and both streams are functions of KEY, ILEN and
IBUF below ILEN. -/
theorem streamResultsDependOnTheirInputs : Obligations.StreamResultsDependOnTheirInputs := by
  intro i s s' t t' hi hkey hlen hibuf h h'
  rcases hi with rfl | rfl
  · obtain ⟨-, rfl⟩ := (exec_encs_eq_next_iff s t).mp h
    obtain ⟨-, rfl⟩ := (exec_encs_eq_next_iff s' t').mp h'
    refine ⟨?_, ?_, fun _ => ?_, fun a ha => ?_⟩
    · simp only [encryptStream_eq, complete_eq]
    · simp only [encryptStream_eq, complete_eq, State.setOlen_olen, hlen]
    · rw [encryptStream_k, encryptStream_k, hkey]
    · obtain ⟨b, m, hb, hm, rfl⟩ : ∃ b m, b < paddedBlocks s.ilen.toNat ∧ m < 8 ∧ a = 8 * b + m := by
        have ha : a < 8 * (s.ilen.toNat / 8 + 1) := ha
        exact ⟨a / 8, a % 8, by rw [paddedBlocks]; omega, by omega, by omega⟩
      rw [readByte_encryptStream_block s b m hb hm, readByte_encryptStream_block s' b m (hlen ▸ hb) hm,
        paddedByte_eq_of_inputs hlen hibuf, hkey]
  · obtain ⟨h8, rfl⟩ | ⟨h8, -, rfl⟩ := (exec_decs_eq_next_iff s t).mp h
    · obtain ⟨-, rfl⟩ | ⟨h8', -⟩ := (exec_decs_eq_next_iff s' t').mp h'
      · refine ⟨rfl, rfl, fun haligned => absurd (haligned.resolve_left nofun) h8, fun a ha => ?_⟩
        rw [obufWritten, if_neg h8] at ha
        exact absurd ha (Nat.not_lt_zero a)
      · exact absurd (hlen ▸ h8') h8
    · obtain ⟨h8', -⟩ | ⟨h8', -, rfl⟩ := (exec_decs_eq_next_iff s' t').mp h'
      · exact absurd (hlen ▸ h8) h8'
      · have hbytes := decryptedByte_eq_of_inputs hkey hibuf h8
        obtain ⟨hstatus, holen⟩ := unpad_outcome_eq_of_decryptedByte_eq s s' h8 hlen hbytes
        obtain ⟨hk, hobuf, -⟩ := unpad_decryptBlocks_leaves s h8 _ rfl
        obtain ⟨hk', hobuf', -⟩ := unpad_decryptBlocks_leaves s' h8' _ rfl
        refine ⟨hstatus, holen, fun _ => by rw [hk, hk', hkey], fun a ha => ?_⟩
        rw [obufWritten, if_pos h8] at ha
        rw [hobuf a ha, hobuf' a (hlen ▸ ha), hbytes a ha]

end Sys2Proof.Machine

/-! PROOF. The round trips (spec/43_block_transform.md R150, spec/44_ecb_stream.md R175): ENCB and then DECB on its result, ENCS
and then DECS on its output. -/

namespace Sys2Proof.Machine

/-- Settles O34: DECB decrypts what ENCB has encrypted under the same KEY. -/
theorem encbThenDecbRestoresTheBlock : Obligations.EncbThenDecbRestoresTheBlock := by
  intro s
  obtain ⟨t, henc, htdout, -, -, hregs, -⟩ := encbCompletes s
  obtain ⟨u, hdec, hudout, huk, hustatus, -⟩ := decbCompletes { t with din := t.dout }
  have hkey : t.key = s.key := hregs .key rfl
  have hback : crypt t.dout t.key .dec = s.din := by
    rw [htdout, hkey]
    exact crypt_crypt_opposite s.din s.key .enc
  exact ⟨t, u, henc, hdec, hudout.trans hback, huk.trans (congrArg keySchedule hkey), hustatus⟩

section
variable (s u : State) (hkey : u.key = s.key)
  (hibuf : ∀ a, a < 8 * paddedBlocks s.ilen.toNat → readByte u .ibuf a = readByte (encryptStream s) .obuf a)
  (hlen : u.ilen.toNat = 8 * paddedBlocks s.ilen.toNat)

include hkey hibuf in
/-- Decrypting the output of ENCS gives the padded stream back (44_ecb_stream.md R175). -/
theorem decryptedByte_of_encryptStream (m : Nat) (hm : m < 8 * paddedBlocks s.ilen.toNat) :
    decryptedByte u m = paddedByte s m := by
  have hblock : memRead u .ibuf (8 * (m / 8)) = crypt (blockAt (paddedByte s) (8 * (m / 8))) s.key .enc := by
    rw [← memRead_encryptStream s (m / 8) (by omega)]
    exact blockAt_congr _ _ _ fun j hj => hibuf _ (by omega)
  have hback : crypt (crypt (blockAt (paddedByte s) (8 * (m / 8))) s.key .enc) s.key .dec =
      blockAt (paddedByte s) (8 * (m / 8)) := crypt_crypt_opposite _ s.key .enc
  rw [decryptedByte, hblock, hkey, hback, blockByte_blockAt _ _ _ (by omega), Nat.div_add_mod]

include hkey hibuf in
/-- Below ILEN of the message the decrypted stream is the message (44_ecb_stream.md R175). -/
theorem decryptedByte_of_message (m : Nat) (hm : m < s.ilen.toNat) : decryptedByte u m = readByte s .ibuf m := by
  have hpad := add_padLength s.ilen.toNat
  rw [decryptedByte_of_encryptStream s u hkey hibuf m (by omega), paddedByte, if_pos hm]

include hkey hibuf hlen

/-- The decrypted stream ends in the pad length of the message (44_ecb_stream.md R160, R161). -/
theorem decryptedPad_of_encryptStream : decryptedPad u = padLength s.ilen.toNat := by
  have hpad := add_padLength s.ilen.toNat
  have hpos : 1 ≤ padLength s.ilen.toNat ∧ padLength s.ilen.toNat ≤ 8 := by simp only [padLength]; omega
  rw [decryptedPad, decryptedByte_of_encryptStream s u hkey hibuf _ (by omega), paddedByte, if_neg (by omega)]
  exact Nat.mod_eq_of_lt (show padLength s.ilen.toNat < 2 ^ 8 by omega)

/-- The padding of ENCS passes the checks of DECS (44_ecb_stream.md R175). -/
theorem goodPadding_of_encryptStream : goodPadding u := by
  have hpad := add_padLength s.ilen.toNat
  have hpos : 1 ≤ padLength s.ilen.toNat ∧ padLength s.ilen.toNat ≤ 8 := by simp only [padLength]; omega
  rw [goodPadding, decryptedPad_of_encryptStream s u hkey hibuf hlen]
  refine ⟨by omega, hpos.1, hpos.2, fun m hm hge => ?_⟩
  rw [decryptedByte_of_encryptStream s u hkey hibuf m (by omega), paddedByte, if_neg (by omega)]
  exact Nat.mod_eq_of_lt (show padLength s.ilen.toNat < 2 ^ 8 by omega)

/-- Stripping the padding leaves as many bytes as the message has. -/
theorem ilen_sub_decryptedPad_of_encryptStream : u.ilen.toNat - decryptedPad u = s.ilen.toNat := by
  rw [decryptedPad_of_encryptStream s u hkey hibuf hlen, hlen, ← add_padLength, Nat.add_sub_cancel]

/-- The unpadded bytes are the message (44_ecb_stream.md R175). -/
theorem unpaddedBytes_of_encryptStream : unpaddedBytes u = bytesOf s .ibuf s.ilen.toNat := by
  rw [unpaddedBytes, ilen_sub_decryptedPad_of_encryptStream s u hkey hibuf hlen]
  exact List.map_congr_left fun m hm => decryptedByte_of_message s u hkey hibuf m (List.mem_range.mp hm)

end

/-- Settles O41: the padding of ENCS is good, so DECS gives the message back and lets the text check decide. -/
theorem streamRoundTrip : Obligations.StreamRoundTrip := by
  intro s t u h hkey hilen hmax hibuf
  obtain ⟨hmsg, rfl⟩ := (exec_encs_eq_next_iff s t).mp h
  have holen := toNat_encryptStream_olen s hmsg
  have hlen : u.ilen.toNat = 8 * paddedBlocks s.ilen.toNat := by rw [hilen, holen]
  rw [holen] at hibuf
  obtain ⟨v, hexec, hstatus, hvlen, -, hobuf, -⟩ := decsCompletesOnGoodPadding u (by omega) hmax
    (goodPadding_of_encryptStream s u hkey hibuf hlen)
  rw [unpaddedBytes_of_encryptStream s u hkey hibuf hlen] at hstatus hvlen
  rw [ilen_sub_decryptedPad_of_encryptStream s u hkey hibuf hlen] at hvlen
  have hpad := add_padLength s.ilen.toNat
  refine ⟨v, hexec, hstatus, ?_, fun a ha => ?_⟩
  · apply BitVec.eq_of_toNat_eq
    rw [hvlen]
    split <;> rfl
  · rw [hobuf a (by omega), decryptedByte_of_message s u hkey hibuf a ha]

end Sys2Proof.Machine

/-! PROOF. Which commands write which registers (spec/10_state.md R12 to R14, R18 to R21), field by field. -/

namespace Sys2Proof.Machine

namespace StreamFrame

variable {s t : State} (h : StreamFrame s t)
include h

/-- DIN is written by the host alone (10_state.md R13). -/
theorem din_eq : t.din = s.din := by rw [h]

/-- DOUT is the result of the block commands alone (10_state.md R14). -/
theorem dout_eq : t.dout = s.dout := by rw [h]

/-- The written bytes of IBUF stay (10_state.md R20). -/
theorem ibuf_eq : t.ibuf = s.ibuf := by rw [h]

end StreamFrame

section
variable {i : Instr} {s t : State} (h : exec i s = .next t)
include h

/-- What the two stream commands write at most. -/
theorem streamFrame_of_exec (hi : i = .encs ∨ i = .decs) : StreamFrame s t := by
  rcases hi with rfl | rfl
  · obtain ⟨-, rfl⟩ := (exec_encs_eq_next_iff s t).mp h
    exact streamFrame_encryptStream s
  · exact streamFrame_decs s t h

/-- No command writes DIN, ILEN or IBUF (10_state.md R13, R18, R20). -/
theorem commandInputs_of_exec : t.din = s.din ∧ t.ilen = s.ilen ∧ t.ibuf = s.ibuf := by
  cases i with
  | genkey | keyexp => cases h; exact ⟨rfl, rfl, rfl⟩
  | encb | decb => cases h; simp only [blockCommand_eq, and_self]
  | encs =>
    have hframe := streamFrame_of_exec h (.inl rfl)
    exact ⟨hframe.din_eq, hframe.ilen_eq, hframe.ibuf_eq⟩
  | decs =>
    have hframe := streamFrame_of_exec h (.inr rfl)
    exact ⟨hframe.din_eq, hframe.ilen_eq, hframe.ibuf_eq⟩

/-- Only GENKEY writes KEY (10_state.md R12). -/
theorem key_of_exec (hi : i ≠ .genkey) : t.key = s.key := by
  cases i with
  | genkey => exact absurd rfl hi
  | keyexp => cases h; rfl
  | encb | decb => cases h; rw [blockCommand_eq]
  | encs => exact (streamFrame_of_exec h (.inl rfl)).key_eq
  | decs => exact (streamFrame_of_exec h (.inr rfl)).key_eq

/-- Only the block commands write DOUT (10_state.md R14). -/
theorem dout_of_exec (henc : i ≠ .encb) (hdec : i ≠ .decb) : t.dout = s.dout := by
  cases i with
  | encb => exact absurd rfl henc
  | decb => exact absurd rfl hdec
  | genkey | keyexp => cases h; rfl
  | encs => exact (streamFrame_of_exec h (.inl rfl)).dout_eq
  | decs => exact (streamFrame_of_exec h (.inr rfl)).dout_eq

/-- Only the stream commands write OLEN and OBUF (10_state.md R19, R21). -/
theorem streamResults_of_exec (henc : i ≠ .encs) (hdec : i ≠ .decs) : t.olen = s.olen ∧ t.obuf = s.obuf := by
  cases i with
  | encs => exact absurd rfl henc
  | decs => exact absurd rfl hdec
  | genkey | keyexp => cases h; exact ⟨rfl, rfl⟩
  | encb | decb => cases h; simp only [blockCommand_eq, and_self]

end

/-! ### The rules over all steps -/

/-- Settles O53: of the step's effects only WR KEY, reset and GENKEY write KEY. -/
theorem onlyWrKeyAndGenkeyWriteKey : Obligations.OnlyWrKeyAndGenkeyWriteKey := by
  intro s t h hne
  cases stepEffect_of_step h with
  | reset rest hport => exact ⟨rest, .inr (.inr ⟨hport, rfl⟩)⟩
  | key rest v hport => exact ⟨rest, .inl ⟨v, hport, rfl⟩⟩
  | command rest i t hport hexec =>
    by_cases hi : i = .genkey
    · subst hi
      cases hexec
      exact ⟨rest, .inr (.inl ⟨hport, rfl⟩)⟩
    · exact absurd (key_of_exec hexec hi) hne
  | idle | read | ignored | din | ilen | ibuf | illegal => exact absurd rfl hne

/-- Settles O54: no command writes DIN, ILEN or IBUF, and of the host's writes each has its own register. -/
theorem onlyTheHostWritesCommandInputs : Obligations.OnlyTheHostWritesCommandInputs := by
  intro s t h
  cases stepEffect_of_step h with
  | reset rest hport => exact ⟨fun _ => ⟨rest, .inr hport⟩, fun _ => ⟨rest, .inr hport⟩, fun _ => ⟨rest, .inr hport⟩⟩
  | din rest v hport => exact ⟨fun _ => ⟨rest, .inl ⟨v, hport⟩⟩, fun hne => absurd rfl hne, fun hne => absurd rfl hne⟩
  | ilen rest v hport => exact ⟨fun hne => absurd rfl hne, fun _ => ⟨rest, .inl ⟨v, hport⟩⟩, fun hne => absurd rfl hne⟩
  | ibuf rest a b hport =>
    exact ⟨fun hne => absurd rfl hne, fun hne => absurd rfl hne, fun _ => ⟨rest, .inl ⟨a, b, hport⟩⟩⟩
  | command rest i t hport hexec =>
    obtain ⟨hdin, hilen, hibuf⟩ := commandInputs_of_exec hexec
    exact ⟨fun hne => absurd hdin hne, fun hne => absurd hilen hne, fun hne => absurd hibuf hne⟩
  | idle | read | ignored | key | illegal =>
    exact ⟨fun hne => absurd rfl hne, fun hne => absurd rfl hne, fun hne => absurd rfl hne⟩

/-- Settles O55: the host writes no result, and each command writes its own. -/
theorem onlyCommandsWriteResults : Obligations.OnlyCommandsWriteResults := by
  intro s t h
  cases stepEffect_of_step h with
  | reset rest hport => exact ⟨fun _ => ⟨rest, .inr (.inr hport)⟩, fun _ => ⟨rest, .inr (.inr hport)⟩⟩
  | command rest i t hport hexec =>
    constructor
    · intro hne
      by_cases henc : i = .encb
      · subst henc; exact ⟨rest, .inl hport⟩
      · by_cases hdec : i = .decb
        · subst hdec; exact ⟨rest, .inr (.inl hport)⟩
        · exact absurd (dout_of_exec hexec henc hdec) hne
    · intro hne
      by_cases henc : i = .encs
      · subst henc; exact ⟨rest, .inl hport⟩
      · by_cases hdec : i = .decs
        · subst hdec; exact ⟨rest, .inr (.inl hport)⟩
        · obtain ⟨holen, hobuf⟩ := streamResults_of_exec hexec henc hdec
          exact absurd hne (not_or.mpr ⟨not_not.mpr holen, not_not.mpr hobuf⟩)
  | idle | read | ignored | key | din | ilen | ibuf | illegal =>
    exact ⟨fun hne => absurd rfl hne, fun hne => absurd hne (not_or.mpr ⟨not_not.mpr rfl, not_not.mpr rfl⟩)⟩

end Sys2Proof.Machine

/-! PROOF. The invariant of the engine (spec/10_state.md R34, spec/20_memory.md R48): it holds at reset, every step keeps it,
and inside it a host operation never faults and completes exactly when it is well formed. -/

namespace Sys2Proof.Machine

/-! ### The invariant field by field -/

/-- The invariant speaks of six fields. -/
theorem State.Inv.of_fields_eq {s t : State} (h : s.Inv) (hstatus : t.status = s.status) (hilen : t.ilen = s.ilen)
    (holen : t.olen = s.olen) (hrnd : t.rnd = s.rnd) (hibuf : t.ibuf = s.ibuf) (hobuf : t.obuf = s.obuf) : t.Inv where
  status := hstatus ▸ h.status
  ilen := hilen ▸ h.ilen
  olen := holen ▸ h.olen
  rnd := hrnd ▸ h.rnd
  ibuf := hibuf ▸ h.ibuf
  obuf := hobuf ▸ h.obuf

theorem inv_reset : State.reset.Inv where
  status := List.mem_cons_self
  ilen := Nat.zero_le _
  olen := Nat.zero_le _
  rnd := Nat.zero_le _
  ibuf := Memory.wf_nil _
  obuf := Memory.wf_nil _

/-- Settles O48: the inputs pending are no part of the invariant. -/
theorem resetMeetsTheInvariant : Obligations.ResetMeetsTheInvariant :=
  fun _ => inv_reset.of_fields_eq rfl rfl rfl rfl rfl rfl

/-! ### Commands -/

section
variable {i : Instr} {s t : State} (hinv : s.Inv) (h : exec i s = .next t)
include h

/-- The outcomes a command can report are values STATUS takes (10_state.md R16). -/
theorem status_mem_statusValues_of_exec : t.status ∈ statusValues := by
  obtain ⟨-, hmem, -⟩ := everyCommandReportsItsOutcome i s t h
  simp only [List.mem_cons, List.not_mem_nil, or_false] at hmem
  rcases hmem with hstatus | hstatus | hstatus | hstatus <;> simp [hstatus, statusValues]

include hinv

/-- OLEN is at most the length of the padded input, which exceeds ILEN by at most 8 (44_ecb_stream.md R163, R172). -/
theorem olen_le_of_exec : t.olen.toNat ≤ Config.maxLen + 8 := by
  by_cases henc : i = .encs
  · subst henc
    obtain ⟨hlen, rfl⟩ := (exec_encs_eq_next_iff s t).mp h
    rw [toNat_encryptStream_olen s hlen, paddedBlocks]
    omega
  · by_cases hdec : i = .decs
    · subst hdec
      obtain ⟨-, rfl⟩ | ⟨-, hlen, rfl⟩ := (exec_decs_eq_next_iff s t).mp h
      · exact Nat.zero_le _
      · have hle := unpad_olen_le s.ilen.toNat (decryptBlocks s)
        omega
    · rw [(streamResults_of_exec h henc hdec).1]
      exact hinv.olen

/-- RND is 16 after a derivation and as before otherwise (10_state.md R26; log 8). -/
theorem rnd_le_of_exec : t.rnd.toNat ≤ 16 := by
  obtain ⟨hkeep, hderive, -⟩ := workingRegistersAfterCommands i s t h
  by_cases hi : i = .genkey ∨ (i = .decs ∧ s.ilen.toNat % 8 ≠ 0)
  · obtain ⟨-, -, -, -, hrnd, -⟩ := hkeep hi
    exact hrnd ▸ hinv.rnd
  · obtain ⟨hgen, hdec⟩ := not_or.mp hi
    rw [(hderive hgen hdec).2]
    decide

/-- The blocks a stream command writes lie inside OBUF (20_memory.md R48). -/
theorem wf_obuf_of_exec : Memory.wf (bufSize .obuf) t.obuf = true := by
  by_cases henc : i = .encs
  · subst henc
    obtain ⟨hlen, rfl⟩ := (exec_encs_eq_next_iff s t).mp h
    exact wf_streamLoop .enc _ _ (bufSize .obuf) (deriveSubkeys s) hinv.obuf (by simp only [paddedBlocks, bufSize]; omega)
  · by_cases hdec : i = .decs
    · subst hdec
      obtain ⟨-, rfl⟩ | ⟨-, hlen, rfl⟩ := (exec_decs_eq_next_iff s t).mp h
      · exact hinv.obuf
      · obtain ⟨_, _, hunpad⟩ := unpad_frame s.ilen.toNat (decryptBlocks s)
        rw [hunpad]
        exact wf_streamLoop .dec _ _ (bufSize .obuf) (deriveSubkeys s) hinv.obuf (by simp only [bufSize]; omega)
    · rw [(streamResults_of_exec h henc hdec).2]
      exact hinv.obuf

/-- A command keeps the invariant. -/
theorem inv_of_exec : t.Inv := by
  obtain ⟨-, hilen, hibuf⟩ := commandInputs_of_exec h
  exact ⟨status_mem_statusValues_of_exec h, hilen ▸ hinv.ilen, olen_le_of_exec hinv h, rnd_le_of_exec hinv h,
    hibuf ▸ hinv.ibuf, wf_obuf_of_exec hinv h⟩

end

/-! ### Steps -/

/-- Removing an input keeps the invariant. -/
theorem State.Inv.setPort {s : State} (h : s.Inv) (rest : List Input) : (s.setPort rest).Inv :=
  h.of_fields_eq rfl rfl rfl rfl rfl rfl

/-- WR ILEN up to MAXLEN keeps the invariant: MAXLEN fits ILEN, so no bit is lost (10_state.md R18). -/
theorem State.Inv.setIlen {s : State} (h : s.Inv) (v : BitVec 64) (hv : v.toNat ≤ Config.maxLen) :
    (s.setIlen (v.setWidth 32)).Inv := by
  have hle : (v.setWidth 32).toNat ≤ v.toNat := by
    rw [BitVec.toNat_setWidth]
    exact Nat.mod_le _ _
  exact ⟨h.status, hle.trans hv, h.olen, h.rnd, h.ibuf, h.obuf⟩

/-- Settles O49: each effect of a step keeps the invariant, the commands by `inv_of_exec`. -/
theorem stepKeepsTheInvariant : Obligations.StepKeepsTheInvariant := by
  intro s t hinv h
  cases stepEffect_of_step h with
  | idle => exact hinv
  | reset => exact inv_reset.of_fields_eq rfl rfl rfl rfl rfl rfl
  | read | ignored | key | din => exact hinv.of_fields_eq rfl rfl rfl rfl rfl rfl
  | ilen rest v hport hv => exact (hinv.setPort rest).setIlen v hv
  | ibuf rest a b hport ha =>
    exact ⟨hinv.status, hinv.ilen, hinv.olen, hinv.rnd, Memory.wf_write _ _ a b hinv.ibuf ha, hinv.obuf⟩
  | illegal =>
    have hstatus : 0x04#8 ∈ statusValues := by simp [statusValues]
    exact ⟨hstatus, hinv.ilen, hinv.olen, hinv.rnd, hinv.ibuf, hinv.obuf⟩
  | command rest i t hport hexec => exact inv_of_exec (hinv.setPort rest) hexec

/-- Every reachable state meets the invariant: reset does and every step keeps it (10_state.md R34). -/
theorem inv_of_reachable (s : State) (h : Reachable s) : s.Inv := by
  induction h with
  | start inputs => exact resetMeetsTheInvariant inputs
  | next s t _ hstep ih => exact stepKeepsTheInvariant s t ih hstep

/-- Settles O50: the bounds are those of the invariant, and a subkey has 48 bits. -/
theorem reachableStatesMeetTheInvariants : Obligations.ReachableStatesMeetTheInvariants := by
  intro s h
  have hinv := inv_of_reachable s h
  have hstatus := hinv.status
  simp only [statusValues, List.mem_cons, List.not_mem_nil, or_false] at hstatus
  refine ⟨?_, ?_, hinv.ilen, hinv.olen, fun i => s.k[i].isLt⟩
  · rcases hstatus with hv | hv | hv | hv | hv | hv <;> rw [hv] <;> rfl
  · rcases hstatus with hv | hv | hv | hv | hv | hv <;> simp [hv]

/-! ### Completion -/

/-- With ILEN up to MAXLEN every command completes (45_host_access.md R200). -/
theorem exec_completes (i : Instr) (s : State) (hlen : s.ilen.toNat ≤ Config.maxLen) : ∃ t, exec i s = .next t := by
  cases i with
  | genkey | keyexp | encb | decb => exact ⟨_, rfl⟩
  | encs => exact ⟨_, execEncs_inside s hlen⟩
  | decs =>
    by_cases h8 : s.ilen.toNat % 8 = 0
    · exact ⟨_, execDecs_inside s h8 hlen⟩
    · exact ⟨_, execDecs_misaligned s h8⟩

/-- With ILEN up to MAXLEN every word written to CMD completes (60_exceptions.md R215). -/
theorem runCommand_completes (v : Byte) (s : State) (hlen : s.ilen.toNat ≤ Config.maxLen) :
    ∃ t, runCommand v s = .next t := by
  obtain ⟨i, -, hrun⟩ | ⟨-, hrun⟩ := runCommand_cases v s
  · rw [hrun]
    exact exec_completes i s hlen
  · exact ⟨_, hrun⟩

/-- What makes a WR of a register well formed: the value fits, and it is at most MAXLEN for ILEN (45_host_access.md R192,
R197). -/
theorem wf_wr_iff (num : Nat) (v : BitVec 64) (reg : Reg) (hnum : regOfNumber num = some reg) :
    (HostOp.wr num v).wf = true ↔ fitsReg reg v = true ∧ (reg = .ilen → v.toNat ≤ Config.maxLen) := by
  cases reg <;> simp [HostOp.wf, hnum]

/-- A value that fits its register is written, but for one above MAXLEN and ILEN (45_host_access.md R192, R197). -/
theorem writeReg_completes_or_refused (reg : Reg) (v : BitVec 64) (s : State) (hlen : s.ilen.toNat ≤ Config.maxLen) :
    ((reg = .ilen → v.toNat ≤ Config.maxLen) ∧ ∃ t, writeReg reg v s = .next t) ∨
    (¬ (reg = .ilen → v.toNat ≤ Config.maxLen) ∧ ∃ reason, writeReg reg v s = .refused reason) := by
  cases reg with
  | cmd => exact .inl ⟨nofun, runCommand_completes _ s hlen⟩
  | ilen =>
    by_cases hv : v.toNat ≤ Config.maxLen
    · exact .inl ⟨fun _ => hv, _, if_pos hv⟩
    · exact .inr ⟨fun hle => hv (hle rfl), _, if_neg hv⟩
  | key | din | status | dout | olen | k _ => exact .inl ⟨nofun, _, rfl⟩

section
variable (s : State) (hlen : s.ilen.toNat ≤ Config.maxLen)
include hlen

/-- A WR completes when it is well formed and is refused when it is not (45_host_access.md R192, R197; log 11). -/
theorem hostWrite_completes_or_refused (num : Nat) (v : BitVec 64) :
    ((HostOp.wr num v).wf = true ∧ ∃ t, hostWrite num v s = .next t) ∨
    (¬ (HostOp.wr num v).wf = true ∧ ∃ reason, hostWrite num v s = .refused reason) := by
  cases hnum : regOfNumber num with
  | none => exact .inr ⟨by simp [HostOp.wf, hnum], _, hostWrite_of_regOfNumber_none s num v hnum⟩
  | some reg =>
    rw [wf_wr_iff num v reg hnum, hostWrite, hnum]
    by_cases hfits : fitsReg reg v = true
    · simp only [hfits, if_true, true_and]
      exact writeReg_completes_or_refused reg v s hlen
    · exact .inr ⟨fun hwf => hfits hwf.1, _, if_neg hfits⟩

/-- A host operation completes when it is well formed and is refused when it is not (45_host_access.md R197, R200). -/
theorem hostOp_completes_or_refused (o : HostOp) :
    (o.wf = true ∧ ∃ t, hostOp o s = .next t) ∨ (¬ o.wf = true ∧ ∃ reason, hostOp o s = .refused reason) := by
  cases o with
  | rd num =>
    obtain ⟨reg, hnum, hread⟩ | ⟨hnum, hread⟩ := hostRead_cases num s
    · exact .inl ⟨by simp [HostOp.wf, hnum], _, hread⟩
    · exact .inr ⟨by simp [HostOp.wf, hnum], _, hread⟩
  | wr num v => exact hostWrite_completes_or_refused s hlen num v
  | rdb b a =>
    by_cases ha : a < bufSize b
    · exact .inl ⟨decide_eq_true ha, _, hostReadByte_inside s b a ha⟩
    · exact .inr ⟨fun hwf => ha (of_decide_eq_true hwf), _, hostReadByte_outside s b a (not_lt.mp ha)⟩
  | wrb a b =>
    by_cases ha : a < bufSize .ibuf
    · exact .inl ⟨decide_eq_true ha, _, hostWriteByte_inside s a b ha⟩
    · exact .inr ⟨fun hwf => ha (of_decide_eq_true hwf), _, hostWriteByte_outside s a b (not_lt.mp ha)⟩

end

/-- Settles O52: the input removed is no part of ILEN, so `hostOp_completes_or_refused` decides the step. -/
theorem wellFormedOperationsComplete : Obligations.WellFormedOperationsComplete := by
  intro s o rest hinv hport
  rw [step_op s o rest hport]
  obtain ⟨hwf, hnext⟩ | ⟨hwf, reason, hrefused⟩ := hostOp_completes_or_refused (s.setPort rest) hinv.ilen o
  · exact ⟨fun _ => hnext, fun _ => hwf⟩
  · rw [hrefused]
    exact ⟨fun h => absurd h hwf, nofun⟩

/-- Settles O51: the idle step and reset never fault, and a host operation completes or is refused. -/
theorem engineNeverLeavesItsBuffers : Obligations.EngineNeverLeavesItsBuffers := by
  intro s f hinv
  cases hport : s.port with
  | nil => rw [step_idle s hport]; nofun
  | cons input rest =>
    cases input with
    | reset => rw [step_input s _ rest hport]; nofun
    | op o =>
      rw [step_op s o rest hport]
      obtain ⟨-, t, hnext⟩ | ⟨-, reason, hrefused⟩ := hostOp_completes_or_refused (s.setPort rest) hinv.ilen o
      · rw [hnext]; nofun
      · rw [hrefused]; nofun

end Sys2Proof.Machine

/-! PROOF. Idle, reset and the order of host operations (spec/10_state.md R28, spec/20_memory.md R49,
spec/70_reset_and_hazards.md R241, R243), and the S-boxes as ROMs (spec/42_f_function.md R137). -/

namespace Sys2Proof.Machine

/-- Settles O12: the step with an empty port is `step_idle`. -/
theorem idleEngineHoldsItsState : Obligations.IdleEngineHoldsItsState := step_idle

/-- Settles O56: what O11 says of WRB and O10 of RDB, one step after the other. -/
theorem readAfterWriteReturnsTheByte : Obligations.ReadAfterWriteReturnsTheByte := by
  intro s rest a b ha hport
  obtain ⟨m, hwrite, hcells⟩ := (writeBufferByteWritesOneByte s _ a b hport).1 ha
  have hread := (readBufferByteReturnsIt { s with port := .op (.rdb .ibuf a) :: rest, ibuf := m } rest .ibuf a rfl).1 ha
  rw [(hcells a).trans (if_pos rfl)] at hread
  exact ⟨_, _, hwrite, hread, rfl, rfl⟩

/-- The subkeys of the key that reset leaves are the subkeys that reset leaves (10_state.md R28). -/
theorem keySchedule_reset : State.reset.k = keySchedule State.reset.key := by
  apply Vector.ext
  intro i hi
  exact (Vector.getElem_replicate hi).trans (keySchedule_zero ⟨i, hi⟩).symm

/-- Settles O13: the registers are those of `State.reset`, and no buffer byte is written. -/
theorem resetValues : Obligations.ResetValues :=
  ⟨rfl, rfl, rfl, fun i => Vector.getElem_replicate i.isLt, rfl, rfl, rfl, fun _ => rfl, fun _ => rfl, keySchedule_reset⟩

/-- Settles O14: the reset input is performed by `assertReset`. -/
theorem resetInputGivesTheResetState : Obligations.ResetInputGivesTheResetState := by
  intro s rest hport
  exact ⟨assertReset (s.setPort rest), step_input s _ rest hport, rfl, rfl, rfl, fun i => Vector.getElem_replicate i.isLt,
    rfl, rfl, rfl, fun _ => rfl, fun _ => rfl, rfl, rfl, rfl⟩

/-- The all-zero key encrypts the all-zero block and a full block of padding to these blocks (70_reset_and_hazards.md
R243). -/
theorem crypt_zero_key : crypt 0#64 0#64 .enc = 0x8CA64DE9C1B123A7#64 ∧
    crypt 0x0808080808080808#64 0#64 .enc = 0x7E422822773666C0#64 := by decide +kernel

/-- The all-zero key has equal subkeys, so it decrypts as it encrypts (40_key_schedule.md R90). -/
theorem crypt_zero_key_dec (block : Block) : crypt block 0#64 .dec = crypt block 0#64 .enc := by
  refine (crypt_enc_eq_crypt_dec 0#64 (fun i => ?_) block).symm
  exact (keySchedule_zero i).trans (keySchedule_zero 0).symm

/-- The input after reset is empty, so its padded stream is one block of padding (44_ecb_stream.md R160). -/
theorem blockAt_paddedByte_reset : blockAt (paddedByte State.reset) (8 * 0) = 0x0808080808080808#64 :=
  blockAt_paddedStream_aligned State.reset 0 rfl

/-- Settles O15: KEY, DIN and ILEN are zero at reset, and each command's result is known as a function of them. -/
theorem firstCommandsAfterReset : Obligations.FirstCommandsAfterReset := by
  have hlen : State.reset.ilen.toNat ≤ Config.maxLen := Nat.zero_le _
  refine ⟨?keyexp, ?encb, ?decb, ?encs, ?decs⟩
  case keyexp =>
    obtain ⟨t, hexec, hk, hstatus, -⟩ := keyexpCompletes State.reset
    refine ⟨t, hexec, fun i => ?_, hstatus⟩
    rw [hk, ← keySchedule_reset]
    exact Vector.getElem_replicate i.isLt
  case encb =>
    obtain ⟨t, hexec, hdout, -⟩ := encbCompletes State.reset
    exact ⟨t, hexec, hdout.trans crypt_zero_key.1⟩
  case decb =>
    obtain ⟨t, hexec, hdout, -⟩ := decbCompletes State.reset
    exact ⟨t, hexec, hdout.trans ((crypt_zero_key_dec 0#64).trans crypt_zero_key.1)⟩
  case encs =>
    obtain ⟨t, hexec, -, -, holen, hblock, -⟩ := encsCompletes State.reset hlen
    refine ⟨t, hexec, ?_, BitVec.eq_of_toNat_eq holen⟩
    have hfirst := hblock 0 (Nat.succ_pos _)
    rw [blockAt_paddedByte_reset] at hfirst
    exact hfirst.trans crypt_zero_key.2
  case decs =>
    obtain ⟨t, hexec, hstatus, -⟩ := decsRejectsBadPadding State.reset rfl hlen (.inl rfl)
    exact ⟨t, hexec, hstatus⟩

/-- Settles O25: 64 groups for each of the eight S-boxes. -/
theorem sboxLookupsMatchTheRoms : Obligations.SboxLookupsMatchTheRoms := by
  unfold Obligations.SboxLookupsMatchTheRoms
  decide +kernel

end Sys2Proof.Machine
